-- ==== Sys2Proof/Word.lean ====
section
/-! DEFINITION. The bit-vector types of the interface (00_scope.md rules R5 to R8, R10; 30_encoding.md rules R43, R45).
Bit 0 is the least significant bit; `v.getLsbD i` is the spec's `v[i]`, `v.extractLsb' lo n` its slice of `n` bits
from `lo` up, and `a ++ b` its concatenation `a · b`, `a` in the high bits. -/

namespace Sys2Proof

/-- A descriptor, "always exactly 64 bits" (R5), or any 64-bit operand of DECODE and BSWAP. -/
abbrev Word := BitVec 64

/-- A byte of a descriptor (20_memory.md R27). -/
abbrev Byte := BitVec 8

/-- The `op` field (R47). -/
abbrev OpCode := BitVec 3

/-- The `fill_sel` field, one select bit per unconstrained descriptor field (R49). -/
abbrev FillSel := BitVec 9

/-- The opcode table's selector `sel[11:0] = op[2:0] · fill_sel[8:0]` (R57), a convention of the table only. -/
abbrev Selector := BitVec 12

/-- A length tag of `LEN_W` = 8 bits (R6, R10, R53). -/
abbrev LenTag := BitVec 8

/-- `base_address`, 32 bits (R5). -/
abbrev Base := BitVec 32

/-- `limit`, 20 bits (R5). -/
abbrev Limit := BitVec 20

/-- The random-bits input `rnd` of one transaction, `RND_W` = 65 bits (R6, R50). -/
abbrev Draw := BitVec 65

end Sys2Proof
end

