-- ==== Sys2Proof/Config.lean ====
section
/-! DEFINITION. What is fixed for this hardware (00_scope.md rule R6). `LEN_W` = 8 and `RND_W` = 65 are the widths of
`LenTag` and `Draw` in Word.lean; `LATENCY` is open, no rule depends on it (R135), and the model has no time.
There is no free constant: what the spec leaves open is the input `rnd` (43_randgen.md R93). -/

namespace Sys2Proof

/-- `ADVISORY_EN`: whether the block drives the `advisory` output; true in this hardware (R6, 40_encode.md R70).
DEDUCED (log entry 6). -/
def Config.advisoryEn : Bool := true

end Sys2Proof
end

