-- ==== Sys2Proof/Syntax.lean ====
section
/-! DEFINITION. The operations, one constructor for each row of spec/opcode_table.json (30_encoding.md rules R47, R48,
R56, R57). A constructor carries what the table's selector `op · fill_sel` says and its operation reads (R44): the
operands proper (base, limit, attributes, tags, `desc`, `rnd`) are fields of the request and are read by the meaning. -/

namespace Sys2Proof

/-- An operation as the selector names it. -/
inductive Instr where
  /-- ENCODE, `op` = 0 (R68). -/
  | encode (fill : FillSel)
  /-- DECODE, `op` = 1 (R81); it does not read `fill_sel`. -/
  | decode
  /-- BSWAP, `op` = 2 (R86); it does not read `fill_sel`. -/
  | bswap
  /-- RANDGEN, `op` = 3 (R94). -/
  | randgen (fill : FillSel)
  /-- ENCODE.PM, ENCODE with `fill_sel` = 0x000, the protected-mode canonical variant (R56). -/
  | encodePm
  /-- ENCODE.GEN, ENCODE with `fill_sel` = 0x1FF, the generic variant (R56). -/
  | encodeGen
  /-- RANDGEN.PM, RANDGEN with `fill_sel` = 0x000 (R56). -/
  | randgenPm
  /-- RANDGEN.GEN, RANDGEN with `fill_sel` = 0x1FF (R56). -/
  | randgenGen
  /-- RESERVED, `op` = 4 to 7 (R48). -/
  | reserved (op : OpCode)
deriving DecidableEq, Repr

end Sys2Proof
end

