-- ==== Sys2Proof/Machine/State.lean ====
section
/-! DEFINITION. The interface records, the response as a sum type, and the state. The block has no architectural state
(10_state.md rules R13 to R19, R23, R24): `State` holds the request interface and the response interface, which stand
in the place of registers (R22), and nothing else (log entry 1). -/

namespace Sys2Proof.Machine

/-- One request, every input of 30_encoding.md rule R43. -/
structure Request where
  /-- `req_valid`: a request is presented. -/
  valid : Bool
  /-- `op`: operation select (R47). -/
  op : OpCode
  /-- `fill_sel`: per-field select of fixed value or random bit (R49). -/
  fillSel : FillSel
  /-- `base_len`: length tag of the base operand (R53). -/
  baseLen : LenTag
  /-- `base`. -/
  base : Base
  /-- `limit_len`: length tag of the limit operand (R53). -/
  limitLen : LenTag
  /-- `limit`. -/
  limit : Limit
  /-- `readable`. -/
  readable : Bool
  /-- `executable`. -/
  executable : Bool
  /-- `writable`. -/
  writable : Bool
  /-- `gran_present`: the optional `granularity_extended` is supplied. -/
  granPresent : Bool
  /-- `gran`: `granularity_extended`. -/
  gran : Bool
  /-- `desc_len`: length tag of the descriptor operand (R53). -/
  descLen : LenTag
  /-- `desc`: a descriptor in canonical big-endian form (20_memory.md R27). -/
  desc : Word
  /-- `rnd`: the random bits presented with this request (R50), a free input (43_randgen.md R93). -/
  rnd : Draw
deriving DecidableEq, Repr

/-- The interface with no request presented (70_reset_and_hazards.md R128). The other fields are not read while
`req_valid` is 0; that they are 0 here is a DESIGN CHOICE (log entry 3). -/
def Request.idle : Request where
  valid := false
  op := 0
  fillSel := 0
  baseLen := 0
  base := 0
  limitLen := 0
  limit := 0
  readable := false
  executable := false
  writable := false
  granPresent := false
  gran := false
  descLen := 0
  desc := 0
  rnd := 0

/-- One response, every output of 30_encoding.md rule R45. -/
structure Response where
  /-- `resp_valid`: this is the response to a presented request. -/
  valid : Bool
  /-- `status`: 0 is success, otherwise an error kind's code (60_exceptions.md R112). -/
  status : BitVec 3
  /-- `result`: ENCODE, RANDGEN, BSWAP. -/
  result : Word
  /-- `result_le`: the byte reversal of `result`. -/
  resultLe : Word
  /-- `advisory`: ENCODE, RANDGEN (40_encode.md R70). -/
  advisory : Bool
  /-- `f_base`: DECODE, as all that follow. -/
  fBase : Base
  /-- `f_limit`. -/
  fLimit : Limit
  /-- `f_g`. -/
  fG : Bool
  /-- `f_d`. -/
  fD : Bool
  /-- `f_l`. -/
  fL : Bool
  /-- `f_avl`. -/
  fAvl : Bool
  /-- `f_p`. -/
  fP : Bool
  /-- `f_dpl`. -/
  fDpl : BitVec 2
  /-- `f_s`. -/
  fS : Bool
  /-- `f_type`. -/
  fType : Bool
  /-- `f_subtype`. -/
  fSubtype : Bool
  /-- `f_accessibility`. -/
  fAccessibility : Bool
  /-- `f_accessed`. -/
  fAccessed : Bool
  /-- `lbl_type` (R52). -/
  lblType : Bool
  /-- `lbl_subtype` (R52). -/
  lblSubtype : BitVec 2
  /-- `lbl_perm`, the letters R, W, X from bit 2 down (R52). -/
  lblPerm : BitVec 3
deriving DecidableEq, Repr

/-- The idle response: every field 0 (70_reset_and_hazards.md R128). -/
def Response.idle : Response where
  valid := false
  status := 0
  result := 0
  resultLe := 0
  advisory := false
  fBase := 0
  fLimit := 0
  fG := false
  fD := false
  fL := false
  fAvl := false
  fP := false
  fDpl := 0
  fS := false
  fType := false
  fSubtype := false
  fAccessibility := false
  fAccessed := false
  lblType := false
  lblSubtype := 0
  lblPerm := 0

/-- The error kinds (60_exceptions.md R112). They are values of a response, never a stop of the machine (R111). -/
inductive ErrorKind where
  /-- `base_len ≠ 32` or `limit_len ≠ 20` on ENCODE (R113). -/
  | invalidFieldWidth
  /-- `executable` and `writable` together, on ENCODE or RANDGEN (R114). -/
  | invalidAttributeCombination
  /-- None of `readable`, `executable`, `writable`, on ENCODE or RANDGEN (R115). -/
  | noAttributes
  /-- `desc_len ≠ 64` on DECODE or BSWAP (R117). -/
  | invalidLength
  /-- A reserved `op` (R118). -/
  | invalidOperation
deriving DecidableEq, Repr

/-- Every field of a descriptor (30_encoding.md R37 to R39), the base and limit in one piece each. -/
structure DescFields where
  base : Base
  limit : Limit
  g : Bool
  d : Bool
  l : Bool
  avl : Bool
  p : Bool
  dpl : BitVec 2
  s : Bool
  /-- Type: true is code, false is data. -/
  type : Bool
  subtype : Bool
  accessibility : Bool
  accessed : Bool
deriving DecidableEq, Repr

/-- The subtype labels a successful DECODE can give (41_decode.md R78). There is no "Expand down". -/
inductive SubtypeLabel where
  | expandUp
  | notConforming
  | conforming
deriving DecidableEq, Repr

/-- The letter sets a successful DECODE can give (41_decode.md R79, 30_encoding.md R52). -/
inductive PermLabel where
  /-- data, Accessibility 0: R -/
  | r
  /-- data, Accessibility 1: R, W -/
  | rw
  /-- code, Accessibility 0: X -/
  | x
  /-- code, Accessibility 1: X, R -/
  | xr
deriving DecidableEq, Repr

/-- The decode result: raw bit values and derived labels (41_decode.md R82). `code` is the type label, "Code" or
"Data". -/
structure FieldRecord where
  raw : DescFields
  code : Bool
  subtype : SubtypeLabel
  perm : PermLabel
deriving DecidableEq, Repr

/-- A response as exactly one of the outcomes of 00_scope.md rule R12. -/
inductive Answer where
  /-- Success with a 64-bit result (ENCODE, RANDGEN, BSWAP). -/
  | word (result : Word) (advisory : Bool)
  /-- Success with a field record (DECODE). -/
  | fields (f : FieldRecord)
  /-- One error kind with no result. -/
  | error (kind : ErrorKind)
deriving DecidableEq, Repr

/-- Why the machine stops: never. "Every request, with any value on every field, gets exactly one response"; the step
"needs no fault, stuck or refused outcome" (60_exceptions.md R121). No constructor, so no meaning raises one; safe. -/
inductive Fault where
deriving DecidableEq, Repr

/-- Why an operation has no meaning. -/
inductive Refusal where
  /-- Raised by `exec` alone, for an operation not modelled yet; no arm raises it. Safe: no claim follows from it. -/
  | notModelled (mnemonic : String)
deriving DecidableEq, Repr

/-- The interface, in the place of state (10_state.md R22). -/
structure State where
  /-- The requests that the host presents, oldest first, one per step; the head is presented now, and the empty list
  is an idle interface. The model's own field, DESIGN CHOICE (log entries 1, 2, 3). -/
  requests : List Request
  /-- The response interface as the last step drove it; no step reads it (10_state.md R20). -/
  resp : Response
deriving DecidableEq, Repr

/-- After reset no request is presented and every response field is 0 (10_state.md R23, 70_reset_and_hazards.md R127,
R128). -/
def State.reset : State where
  requests := []
  resp := Response.idle

end Sys2Proof.Machine
end

