-- ==== Sys2Proof/Machine/Flags.lean ====
section
/-! DEFINITION. The block has no flags (10_state.md R15). What it computes in their place, anew in every transaction:
the status codes (60_exceptions.md R112), the advisory bit (40_encode.md R70), and the labels of DECODE with their codes
(41_decode.md R77 to R79, 30_encoding.md R52). -/

namespace Sys2Proof.Machine

/-- The `status` code of an error kind (R112). -/
def ErrorKind.code : ErrorKind → BitVec 3
  | .invalidFieldWidth => 1
  | .invalidAttributeCombination => 2
  | .noAttributes => 3
  | .invalidLength => 4
  | .invalidOperation => 5

/-- The error kind of a `status` code; 0 is success, 6 and 7 are never driven (R51). -/
def ErrorKind.ofCode (status : BitVec 3) : Option ErrorKind :=
  match status.toNat with
  | 1 => some .invalidFieldWidth
  | 2 => some .invalidAttributeCombination
  | 3 => some .noAttributes
  | 4 => some .invalidLength
  | 5 => some .invalidOperation
  | _ => none

/-- The advisory of a successful ENCODE or RANDGEN: `if ADVISORY_EN and Type = 1 then 1 else 0` (R68, R70). With
`ADVISORY_EN` false it is always 0. -/
def advisoryBit (advisoryEn type : Bool) : Bool := advisoryEn && type

/-- The subtype classification of Type and Subtype (R78): both data values are "Expand up". -/
def subtypeLabel (type subtype : Bool) : SubtypeLabel :=
  match type, subtype with
  | false, _ => .expandUp
  | true, false => .notConforming
  | true, true => .conforming

/-- The accessibility classification of Type and Accessibility (R79). -/
def permLabel (type accessibility : Bool) : PermLabel :=
  match type, accessibility with
  | false, false => .r
  | false, true => .rw
  | true, false => .x
  | true, true => .xr

/-- `lbl_subtype` (R52); 00 is no label. -/
def SubtypeLabel.code : SubtypeLabel → BitVec 2
  | .expandUp => 0b01
  | .notConforming => 0b10
  | .conforming => 0b11

/-- The subtype label of a `lbl_subtype` code. -/
def SubtypeLabel.ofCode (c : BitVec 2) : Option SubtypeLabel :=
  match c.toNat with
  | 1 => some .expandUp
  | 2 => some .notConforming
  | 3 => some .conforming
  | _ => none

/-- `lbl_perm`, the letters R, W, X from bit 2 down (R52). -/
def PermLabel.code : PermLabel → BitVec 3
  | .r => 0b100
  | .rw => 0b110
  | .x => 0b001
  | .xr => 0b101

/-- The letter set of a `lbl_perm` code; 000, 010, 011 and 111 are never produced by a successful DECODE
(93_implementation_defined.md U14). -/
def PermLabel.ofCode (c : BitVec 3) : Option PermLabel :=
  match c.toNat with
  | 4 => some .r
  | 6 => some .rw
  | 1 => some .x
  | 5 => some .xr
  | _ => none

end Sys2Proof.Machine
end

