-- ==== Sys2Proof/Machine/Ops.lean ====
section
/-! DEFINITION. The shared operations: the byte reversal (42_bswap.md R84), insertion and extraction of the descriptor's
fields (30_encoding.md R37 to R41), driving a response (30_encoding.md R45), and failing (00_scope.md R9), which stands
in the place of taking an exception: an error is a value of the response and control goes nowhere (60_exceptions.md
R111, R124), so there is no return from one (R122). -/

namespace Sys2Proof.Machine

/-- Byte `k` of a 64-bit value, `v[8k+7:8k]` (20_memory.md R27). -/
def byteOf (v : Word) (k : Nat) : Byte := v.extractLsb' (8 * k) 8

/-- `bswap64`: the 8 bytes in reverse order, each byte's bits as they were (R84). -/
def bswap64 (v : Word) : Word :=
  byteOf v 0 ++ byteOf v 1 ++ byteOf v 2 ++ byteOf v 3 ++ byteOf v 4 ++ byteOf v 5 ++ byteOf v 6 ++ byteOf v 7

/-- A 1-bit value. -/
abbrev bit (b : Bool) : BitVec 1 := BitVec.ofBool b

/-- The flags nibble `G · D · L · AVL` (R39, R67). -/
def DescFields.flags (f : DescFields) : BitVec 4 := bit f.g ++ bit f.d ++ bit f.l ++ bit f.avl

/-- The access byte `P · DPL · S · Type · Subtype · Accessibility · Accessed` (R38, R67). -/
def DescFields.access (f : DescFields) : BitVec 8 :=
  bit f.p ++ f.dpl ++ bit f.s ++ bit f.type ++ bit f.subtype ++ bit f.accessibility ++ bit f.accessed

/-- Bit-field insertion in the canonical assembly order (R37, R40, R67). -/
def DescFields.assemble (f : DescFields) : Word :=
  f.base.extractLsb' 24 8 ++ f.flags ++ f.limit.extractLsb' 16 4 ++ f.access ++ f.base.extractLsb' 16 8 ++
    f.base.extractLsb' 0 16 ++ f.limit.extractLsb' 0 16

/-- Bit-field extraction and reassembly, the inverse (R41, 41_decode.md R75, R76). -/
def DescFields.extract (d : Word) : DescFields where
  base := d.extractLsb' 56 8 ++ d.extractLsb' 32 8 ++ d.extractLsb' 16 16
  limit := d.extractLsb' 48 4 ++ d.extractLsb' 0 16
  g := d.getLsbD 55
  d := d.getLsbD 54
  l := d.getLsbD 53
  avl := d.getLsbD 52
  p := d.getLsbD 47
  dpl := d.extractLsb' 45 2
  s := d.getLsbD 44
  type := d.getLsbD 43
  subtype := d.getLsbD 42
  accessibility := d.getLsbD 41
  accessed := d.getLsbD 40

/-- The response that an answer drives: the fields it produces, and 0 on every other field (R45, R46; for an error
60_exceptions.md R116). -/
def Answer.drive : Answer → Response
  | .word result advisory =>
      { Response.idle with valid := true, status := 0, result := result, resultLe := bswap64 result, advisory := advisory }
  | .fields f =>
      { Response.idle with
        valid := true
        status := 0
        fBase := f.raw.base
        fLimit := f.raw.limit
        fG := f.raw.g
        fD := f.raw.d
        fL := f.raw.l
        fAvl := f.raw.avl
        fP := f.raw.p
        fDpl := f.raw.dpl
        fS := f.raw.s
        fType := f.raw.type
        fSubtype := f.raw.subtype
        fAccessibility := f.raw.accessibility
        fAccessed := f.raw.accessed
        lblType := f.code
        lblSubtype := f.subtype.code
        lblPerm := f.perm.code }
  | .error kind => { Response.idle with valid := true, status := kind.code }

/-- The request on the interface: the oldest one not served, or none (R42; log entries 2 and 3). -/
def State.req (s : State) : Request := s.requests.headD Request.idle

/-- Drive the response interface. -/
def State.drive (s : State) (r : Response) : State := { s with resp := r }

/-- The host goes on to its next request (20_memory.md R33). -/
def State.advance (s : State) : State := { s with requests := s.requests.tail }

/-- End an operation with an answer. -/
def State.answer (s : State) (a : Answer) : Host.Outcome State Fault Refusal := .next (s.drive a.drive)

/-- `fail <ErrorKind>`: the status code, and 0 on every other field (00_scope.md R9, 60_exceptions.md R116). -/
def State.fail (s : State) (kind : ErrorKind) : Host.Outcome State Fault Refusal := s.answer (.error kind)

/-- What a step does when no request is presented: the idle response, whatever the last transaction was
(10_state.md R22, 70_reset_and_hazards.md R128). -/
def State.driveIdle (s : State) : State := s.drive Response.idle

end Sys2Proof.Machine
end

