-- ==== Sys2Proof/Machine/Operands.lean ====
section
/-! DEFINITION. The operand forms: length-tagged operands (00_scope.md R10, 30_encoding.md R53), the attribute triple
and its decision table (40_encode.md R62), the fields that a select bit takes from a fixed value or from `rnd`
(40_encode.md R64 to R66), and the operands that RANDGEN draws (43_randgen.md R90). -/

namespace Sys2Proof.Machine

/-- Both ENCODE operands have the accepted widths (40_encode.md R60). The tags alone are looked at. -/
def Request.widthsOk (req : Request) : Bool := req.baseLen == 32 && req.limitLen == 20

/-- The descriptor operand is exactly 64 bits wide (41_decode.md R74, 42_bswap.md R85). -/
def Request.descOk (req : Request) : Bool := req.descLen == 64

/-- The two access-byte bits that the attributes decide. -/
structure SegClass where
  type : Bool
  accessibility : Bool
deriving DecidableEq, Repr

/-- The attribute decision table, its four cases in order, the first that matches taken (R62). -/
def classify (readable executable writable : Bool) : Except ErrorKind SegClass :=
  if (readable || executable) && !writable then .ok { type := true, accessibility := readable }
  else if executable && writable then .error .invalidAttributeCombination
  else if !readable && !executable && !writable then .error .noAttributes
  else .ok { type := false, accessibility := writable }

/-- The G bit's fixed source: an absent `granularity_extended` means true (R66). -/
def Request.gFixed (req : Request) : Bool := if req.granPresent then req.gran else true

/-- The multiplexer of one unconstrained bit: `if fill_sel[sel] then rnd[rb] else fixed` (R65). -/
def fillBit (fill : FillSel) (rnd : Draw) (sel rb : Nat) (fixed : Bool) : Bool :=
  if fill.getLsbD sel then rnd.getLsbD rb else fixed

/-- The multiplexer of DPL: `if fill_sel[3] then rnd[4:3] else 2'b00` (R65). -/
def fillDpl (fill : FillSel) (rnd : Draw) : BitVec 2 := if fill.getLsbD 3 then rnd.extractLsb' 3 2 else 0b00

/-- Every field of the descriptor that ENCODE builds, for a class that the decision table gave (R64 to R66, R68). -/
def encodeFields (fill : FillSel) (req : Request) (c : SegClass) : DescFields where
  base := req.base
  limit := req.limit
  g := fillBit fill req.rnd 8 9 req.gFixed
  d := fillBit fill req.rnd 7 8 true
  l := fillBit fill req.rnd 6 7 false
  avl := fillBit fill req.rnd 5 6 false
  p := fillBit fill req.rnd 4 5 true
  dpl := fillDpl fill req.rnd
  s := fillBit fill req.rnd 2 2 true
  type := c.type
  subtype := fillBit fill req.rnd 1 1 false
  accessibility := c.accessibility
  accessed := fillBit fill req.rnd 0 0 false

/-- The request with the operands that RANDGEN draws from `rnd` (R90, R94). -/
def Request.drawn (req : Request) : Request :=
  { req with
    baseLen := 32
    base := req.rnd.extractLsb' 33 32
    limitLen := 20
    limit := req.rnd.extractLsb' 13 20
    readable := req.rnd.getLsbD 12
    executable := req.rnd.getLsbD 11
    writable := req.rnd.getLsbD 10 }

/-- ENCODE from its step 3 on, with operands of the accepted widths: decide the class, fill, assemble, advise
(40_encode.md R62 to R70). -/
def encodeClassified (fill : FillSel) (req : Request) : Answer :=
  match classify req.readable req.executable req.writable with
  | .error kind => .error kind
  | .ok c => .word (encodeFields fill req c).assemble (advisoryBit Config.advisoryEn c.type)

/-- ENCODE of a request under a fill, whole: the widths first (R59, R60), then the rest (R68). -/
def encodeAnswer (fill : FillSel) (req : Request) : Answer :=
  if req.widthsOk then encodeClassified fill req else .error .invalidFieldWidth

/-- The field record of a descriptor, raw bits and labels (41_decode.md R75 to R79). -/
def fieldRecord (d : Word) : FieldRecord where
  raw := DescFields.extract d
  code := d.getLsbD 43
  subtype := subtypeLabel (d.getLsbD 43) (d.getLsbD 42)
  perm := permLabel (d.getLsbD 43) (d.getLsbD 41)

end Sys2Proof.Machine
end

