-- ==== Sys2Proof/Machine/DescriptorOps.lean ====
section
/-! DEFINITION. The meanings of the two operations on a descriptor operand: DECODE (41_decode.md R81) and BSWAP
(42_bswap.md R86). -/

namespace Sys2Proof.Machine

/-- DECODE (R81): the length check, its only failure (R74), then extraction and labels of any 64-bit value (R80). -/
def execDecode (s : State) : Host.Outcome State Fault Refusal :=
  if s.req.descOk then s.answer (.fields (fieldRecord s.req.desc)) else s.fail .invalidLength

/-- BSWAP (R86): the length check, then the byte reversal; no advisory. -/
def execBswap (s : State) : Host.Outcome State Fault Refusal :=
  if s.req.descOk then s.answer (.word (bswap64 s.req.desc) false) else s.fail .invalidLength

end Sys2Proof.Machine
end

