-- ==== Sys2Proof/Machine/EncodeOps.lean ====
section
/-! DEFINITION. The meanings of ENCODE and of its two named variants (40_encode.md R68, 30_encoding.md R56). -/

namespace Sys2Proof.Machine

/-- ENCODE (R68): widths, attribute table, fill, assembly; the first failure ends it (R59). -/
def execEncode (fill : FillSel) (s : State) : Host.Outcome State Fault Refusal := s.answer (encodeAnswer fill s.req)

/-- ENCODE.PM: ENCODE with `fill_sel` = 0x000, every unconstrained field fixed (R56, R64). -/
def execEncodePm (s : State) : Host.Outcome State Fault Refusal := s.answer (encodeAnswer 0x000#9 s.req)

/-- ENCODE.GEN: ENCODE with `fill_sel` = 0x1FF, every unconstrained field from `rnd` (R56, R65). -/
def execEncodeGen (s : State) : Host.Outcome State Fault Refusal := s.answer (encodeAnswer 0x1FF#9 s.req)

end Sys2Proof.Machine
end

