-- ==== Sys2Proof/Machine/RandgenOps.lean ====
section
/-! DEFINITION. The meanings of RANDGEN and of its two named variants (43_randgen.md R94, 30_encoding.md R56): ENCODE
with the operands drawn from `rnd`. -/

namespace Sys2Proof.Machine

/-- RANDGEN (R94): respond as ENCODE of the drawn operands, under the request's own fill (R91). -/
def execRandgen (fill : FillSel) (s : State) : Host.Outcome State Fault Refusal :=
  s.answer (encodeAnswer fill s.req.drawn)

/-- RANDGEN.PM: RANDGEN with `fill_sel` = 0x000 (R56). -/
def execRandgenPm (s : State) : Host.Outcome State Fault Refusal := s.answer (encodeAnswer 0x000#9 s.req.drawn)

/-- RANDGEN.GEN: RANDGEN with `fill_sel` = 0x1FF (R56). -/
def execRandgenGen (s : State) : Host.Outcome State Fault Refusal := s.answer (encodeAnswer 0x1FF#9 s.req.drawn)

end Sys2Proof.Machine
end

