-- ==== Sys2Proof/Machine/ReservedOps.lean ====
section
/-! DEFINITION. The meaning of the reserved operation codes (30_encoding.md R48, 60_exceptions.md R118). -/

namespace Sys2Proof.Machine

/-- A reserved `op`: `InvalidOperation`, nothing else of the request read (R48). -/
def execReserved (_op : OpCode) (s : State) : Host.Outcome State Fault Refusal := s.fail .invalidOperation

end Sys2Proof.Machine
end

