-- ==== Sys2Proof/Machine/Dispatch.lean ====
section
/-! DEFINITION. One arm for each operation, each one call of its meaning. -/

namespace Sys2Proof.Machine

def exec (i : Instr) (s : State) : Host.Outcome State Fault Refusal :=
  match i with
  | .encode fill => Sys2Proof.Machine.execEncode fill s
  | .decode => Sys2Proof.Machine.execDecode s
  | .bswap => Sys2Proof.Machine.execBswap s
  | .randgen fill => Sys2Proof.Machine.execRandgen fill s
  | .encodePm => Sys2Proof.Machine.execEncodePm s
  | .encodeGen => Sys2Proof.Machine.execEncodeGen s
  | .randgenPm => Sys2Proof.Machine.execRandgenPm s
  | .randgenGen => Sys2Proof.Machine.execRandgenGen s
  | .reserved op => Sys2Proof.Machine.execReserved op s

end Sys2Proof.Machine
end

