-- ==== Sys2Proof/WellFormed.lean ====
section
/-! DEFINITION. Which operations are spellings that the decoder gives back: the terms with exactly one selector row,
the most specific one (DESIGN CHOICE, log entry 5). An ill-formed term still has its meaning: ENCODE with fill 0x000 does what
ENCODE.PM does (30_encoding.md rule R56). -/

namespace Sys2Proof

/-- The fills 0x000 and 0x1FF are spelled by the `.PM` and `.GEN` rows (R56, R57). -/
def FillSel.isPlain (fill : FillSel) : Bool := fill != 0x000#9 && fill != 0x1FF#9

/-- `op[2] = 1`, the codes 4 to 7 (R48). -/
def OpCode.isReserved (op : OpCode) : Bool := op.getLsbD 2

/-- An operation is well-formed when the most specific table row of its selector is its own. -/
def Instr.wf : Instr → Bool
  | .encode fill => fill.isPlain
  | .decode => true
  | .bswap => true
  | .randgen fill => fill.isPlain
  | .encodePm => true
  | .encodeGen => true
  | .randgenPm => true
  | .randgenGen => true
  | .reserved op => op.isReserved

end Sys2Proof
end

