-- ==== Sys2Proof/Decode.lean ====
section
/-! DEFINITION. From the selector to the operation and back (30_encoding.md rules R47, R48, R56, R57). The selector is
the only "word" the spec gives an operation, and it is "a convention of the table only", "not a bus word" (R57): the
operands stand in fields of the request and are not encoded (DESIGN CHOICE, log entry 4). Where a base row and a pseudo
row both apply, the pseudo row, the more specific one, is taken (DESIGN CHOICE, log entry 5). -/

namespace Sys2Proof

/-- Why a number is not an operation's word. -/
inductive DecodeError where
  /-- A bit above the selector's 12 bits is set (R57: `sel[11:0]`). -/
  | outsideSelector
deriving DecidableEq, Repr

/-- The operation ENCODE with a fill, spelled by its most specific row (R56). -/
def encodeRow (fill : FillSel) : Instr :=
  if fill = 0x000#9 then .encodePm else if fill = 0x1FF#9 then .encodeGen else .encode fill

/-- The operation RANDGEN with a fill, spelled by its most specific row (R56). -/
def randgenRow (fill : FillSel) : Instr :=
  if fill = 0x000#9 then .randgenPm else if fill = 0x1FF#9 then .randgenGen else .randgen fill

/-- The operation that a request's `op` and `fill_sel` select (R47, R48, R56). -/
def decodeFields (op : OpCode) (fill : FillSel) : Instr :=
  match op.toNat with
  | 0 => encodeRow fill
  | 1 => .decode
  | 2 => .bswap
  | 3 => randgenRow fill
  | _ => .reserved op

/-- `sel[11:9]` (R57). -/
def Selector.op (sel : Selector) : OpCode := sel.extractLsb' 9 3

/-- `sel[8:0]` (R57). -/
def Selector.fill (sel : Selector) : FillSel := sel.extractLsb' 0 9

/-- The operation of a selector. Every selector has one: the codes 4 to 7 are the RESERVED row (R48). -/
def decodeSel (sel : Selector) : Instr := decodeFields sel.op sel.fill

/-- The operation of any number, or the reason that it is none. -/
def decodeWord (w : Nat) : Except DecodeError Instr :=
  if w < 4096 then .ok (decodeSel (BitVec.ofNat 12 w)) else .error .outsideSelector

/-- The decoder on an opcode-table word of `nbits` bits, every bit above them 0. -/
def decodeTableWord (nbits w : Nat) : Option Instr :=
  match decodeWord (w % 2 ^ nbits) with
  | .ok i => some i
  | .error _ => none

/-- The `op` code of an operation (R47). -/
def Instr.opCode : Instr → OpCode
  | .encode _ => 0b000#3
  | .decode => 0b001#3
  | .bswap => 0b010#3
  | .randgen _ => 0b011#3
  | .encodePm => 0b000#3
  | .encodeGen => 0b000#3
  | .randgenPm => 0b011#3
  | .randgenGen => 0b011#3
  | .reserved op => op

/-- The `fill_sel` that an operation asks for (R56). DECODE, BSWAP and the reserved codes do not read it (R44): they
are written with 0. -/
def Instr.fillField : Instr → FillSel
  | .encode fill => fill
  | .decode => 0x000#9
  | .bswap => 0x000#9
  | .randgen fill => fill
  | .encodePm => 0x000#9
  | .encodeGen => 0x1FF#9
  | .randgenPm => 0x000#9
  | .randgenGen => 0x1FF#9
  | .reserved _ => 0x000#9

/-- The selector of an operation, `op · fill_sel` (R57). -/
def encode (i : Instr) : Selector := i.opCode ++ i.fillField

/-- The `match` and `mask` of an operation's row in the opcode table (R57). -/
def Instr.row : Instr → Selector × Selector
  | .encode _ => (0x000#12, 0xE00#12)
  | .decode => (0x200#12, 0xE00#12)
  | .bswap => (0x400#12, 0xE00#12)
  | .randgen _ => (0x600#12, 0xE00#12)
  | .encodePm => (0x000#12, 0xFFF#12)
  | .encodeGen => (0x1FF#12, 0xFFF#12)
  | .randgenPm => (0x600#12, 0xFFF#12)
  | .randgenGen => (0x7FF#12, 0xFFF#12)
  | .reserved _ => (0x800#12, 0x800#12)

end Sys2Proof
end

