-- ==== Sys2Proof/Machine/Fetch.lean ====
section
/-! DEFINITION. Reading the operation off the request interface, and placing one there. The block fetches no
instruction; the operation is the `op` field of each request (10_state.md R14). -/

namespace Sys2Proof.Machine

/-- The operation that a request selects, by its own `op` and `fill_sel` (30_encoding.md R47, R49). -/
def Request.instr (req : Request) : Instr := decodeFields req.op req.fillSel

/-- The request with an opcode-table selector placed on `op` and `fill_sel`, and presented. -/
def Request.withSelector (req : Request) (sel : Selector) : Request :=
  { req with valid := true, op := sel.op, fillSel := sel.fill }

end Sys2Proof.Machine
end

