-- ==== Sys2Proof/Machine/Step.lean ====
section
/-! DEFINITION. One step is one presentation on the request interface: the response is driven in the same step
(70_reset_and_hazards.md R135), and the host goes on to its next request. -/

namespace Sys2Proof.Machine

/-- One step. With no request presented the idle response is driven (R128). With one, its operation is run, and the
request is consumed: exactly one response per request (60_exceptions.md R121, 20_memory.md R33). -/
def step (s : State) : Host.Outcome State Fault Refusal :=
  if s.req.valid then
    match exec s.req.instr s with
    | .next t => .next t.advance
    | .fault r => .fault r
    | .refused r => .refused r
  else .next s.driveIdle.advance

/-- The state in which the request presented next has the opcode-table word `w` on its `op` and `fill_sel` fields and
is valid; its operands are as they were (0 when nothing was presented). Log entries 2 and 4. -/
def State.withFetchWord (s : State) (nbits w : Nat) : State :=
  { s with requests := s.req.withSelector (BitVec.ofNat 12 (w % 2 ^ nbits)) :: s.requests.tail }

end Sys2Proof.Machine
end

