-- ==== Sys2Proof/Machine/HostRead.lean ====
section
/-! DEFINITION. The host's reading of a response (00_scope.md R12, 70_reset_and_hazards.md R130): it tests `resp_valid`
and `status` before any other field, so that the zeros of an error response are never read as a result (60_exceptions.md
R116), and recovers which of the outcomes of R12 the response is. -/

namespace Sys2Proof.Machine

/-- The `f_*` fields of a response, as a descriptor's fields. -/
def Response.raw (r : Response) : DescFields where
  base := r.fBase
  limit := r.fLimit
  g := r.fG
  d := r.fD
  l := r.fL
  avl := r.fAvl
  p := r.fP
  dpl := r.fDpl
  s := r.fS
  type := r.fType
  subtype := r.fSubtype
  accessibility := r.fAccessibility
  accessed := r.fAccessed

/-- The outcome that a response reports, or none where it is no response to a request or is never driven. A field
record is told from a 64-bit result by its labels, which are then not 0 (30_encoding.md R46). -/
def Response.read (r : Response) : Option Answer :=
  if r.valid then
    if r.status = 0 then
      match SubtypeLabel.ofCode r.lblSubtype, PermLabel.ofCode r.lblPerm with
      | some sub, some perm => some (.fields { raw := r.raw, code := r.lblType, subtype := sub, perm := perm })
      | _, _ => some (.word r.result r.advisory)
    else (ErrorKind.ofCode r.status).map .error
  else none

end Sys2Proof.Machine
end

