-- ==== Sys2Proof/Machine/Views.lean ====
section
/-! DEFINITION. The four output views of a descriptor (44_views_and_laws.md R96 to R99): host-side text, functions of
the 64-bit result alone (R100). Lower-case digits, no prefix on the two hexadecimal strings, as the spec writes them
(92_eei_decisions.md D20). -/

namespace Sys2Proof.Machine

/-- The lower-case hexadecimal digit of a number below 16. -/
def hexDigit (n : Nat) : Char := ("0123456789abcdef".toList).getD n '?'

/-- The `digits` low hexadecimal digits of a number, the most significant first. -/
def hexChars (digits n : Nat) : List Char :=
  match digits with
  | 0 => []
  | k + 1 => hexDigit (n / 16 ^ k % 16) :: hexChars k n

/-- The `bits` low bits of a value as `0` and `1`, the most significant first. -/
def bitChars (bits : Nat) (v : Word) : List Char :=
  match bits with
  | 0 => []
  | k + 1 => (if v.getLsbD k then '1' else '0') :: bitChars k v

/-- Big-endian bit string: `result[63]` first (R96). -/
def bigEndianBits (result : Word) : List Char := bitChars 64 result

/-- Big-endian hexadecimal string: the digit for `result[63:60]` first (R97). -/
def bigEndianHex (result : Word) : List Char := hexChars 16 result.toNat

/-- Little-endian hexadecimal string: the digits of `result_le` (R98). -/
def littleEndianHex (result : Word) : List Char := hexChars 16 (bswap64 result).toNat

/-- One byte as `0xNN`. -/
def byteChars (b : Byte) : List Char := "0x".toList ++ hexChars 2 b.toNat

/-- Little-endian byte literal for assembler source: `db `, then byte 0 to byte 7 of the result (R99). -/
def byteLiteral (result : Word) : List Char :=
  "db ".toList ++ ", ".toList.intercalate ((List.range 8).map fun k => byteChars (byteOf result k))

end Sys2Proof.Machine
end

