-- ==== Sys2Proof/Machine/Lines.lean ====
section
/-! DEFINITION. The spec's one-line notation of transactions (30_encoding.md R55), with the named variants (R56): what
request a line stands for, and how a line and a response are written. Host side; no operation reads it. How many digits
a number is written with, and which defaults are left out, is a DESIGN CHOICE (log entry 7). -/

namespace Sys2Proof.Machine

/-- The operands of an ENCODE line, with the defaults of R55. `attr` is the letters of the three booleans; an omitted
`gran` is `gran_present = 0`. -/
structure EncodeLine where
  base : Base
  baseLen : LenTag := 32
  limit : Limit
  limitLen : LenTag := 20
  readable : Bool := false
  executable : Bool := false
  writable : Bool := false
  gran : Option Bool := none
  fill : FillSel := 0
  rnd : Draw := 0
deriving DecidableEq, Repr

/-- A request line (R55, R56). -/
inductive Line where
  | encode (o : EncodeLine)
  | encodePm (o : EncodeLine)
  | encodeGen (o : EncodeLine)
  | decode (desc : Word) (descLen : LenTag)
  | bswap (desc : Word) (descLen : LenTag)
  | randgen (gran : Option Bool) (fill : FillSel) (rnd : Draw)
  | randgenPm (gran : Option Bool) (rnd : Draw)
  | randgenGen (gran : Option Bool) (rnd : Draw)
deriving DecidableEq, Repr

/-- The request of an ENCODE line. Fields that the line does not write are 0; the operation ignores them (R44). -/
def EncodeLine.request (o : EncodeLine) : Request :=
  { Request.idle with
    valid := true
    op := 0
    fillSel := o.fill
    baseLen := o.baseLen
    base := o.base
    limitLen := o.limitLen
    limit := o.limit
    readable := o.readable
    executable := o.executable
    writable := o.writable
    granPresent := o.gran.isSome
    gran := o.gran.getD false
    rnd := o.rnd }

/-- The request of a RANDGEN line. -/
def randgenRequest (gran : Option Bool) (fill : FillSel) (rnd : Draw) : Request :=
  { Request.idle with
    valid := true
    op := 3
    fillSel := fill
    granPresent := gran.isSome
    gran := gran.getD false
    rnd := rnd }

/-- The request that a line stands for; the named variants are the base lines with their fill (R56). -/
def Line.request : Line → Request
  | .encode o => o.request
  | .encodePm o => { o with fill := 0x000 }.request
  | .encodeGen o => { o with fill := 0x1FF }.request
  | .decode desc descLen => { Request.idle with valid := true, op := 1, desc := desc, descLen := descLen }
  | .bswap desc descLen => { Request.idle with valid := true, op := 2, desc := desc, descLen := descLen }
  | .randgen gran fill rnd => randgenRequest gran fill rnd
  | .randgenPm gran rnd => randgenRequest gran 0x000 rnd
  | .randgenGen gran rnd => randgenRequest gran 0x1FF rnd

/-- A number as `0x` and `digits` upper-case hexadecimal digits. -/
def hexNumber (digits n : Nat) : List Char := "0x".toList ++ (hexChars digits n).map Char.toUpper

/-- ` <key>=` -/
def keyChars (key : String) : List Char := ' ' :: key.toList ++ ['=']

/-- `:<len>` in decimal, left out when it is the default. -/
def lenChars (default len : LenTag) : List Char := if len = default then [] else ':' :: (toString len.toNat).toList

/-- A boolean as `0` or `1`. -/
def boolChars (b : Bool) : List Char := [if b then '1' else '0']

/-- The letters of `attr`, or `-` for none. -/
def attrChars (readable executable writable : Bool) : List Char :=
  match (if readable then ['R'] else []) ++ (if executable then ['X'] else []) ++ (if writable then ['W'] else []) with
  | [] => ['-']
  | letters => letters

/-- ` gran=<0|1>`, left out when `granularity_extended` is absent. -/
def granChars : Option Bool → List Char
  | none => []
  | some g => keyChars "gran" ++ boolChars g

/-- ` fill=<hex>`, left out when it is the default. -/
def fillChars (fill : FillSel) : List Char := if fill = 0 then [] else keyChars "fill" ++ hexNumber 3 fill.toNat

/-- ` rnd=<hex>`. -/
def rndChars (rnd : Draw) : List Char := keyChars "rnd" ++ hexNumber 17 rnd.toNat

/-- ` rnd=<hex>` on an ENCODE line, left out when it is the default. -/
def encodeRndChars (rnd : Draw) : List Char := if rnd = 0 then [] else rndChars rnd

/-- The operands of an ENCODE line that every variant writes. -/
def EncodeLine.operandChars (o : EncodeLine) : List Char :=
  keyChars "base" ++ hexNumber 8 o.base.toNat ++ lenChars 32 o.baseLen ++
    keyChars "limit" ++ hexNumber 5 o.limit.toNat ++ lenChars 20 o.limitLen ++
    keyChars "attr" ++ attrChars o.readable o.executable o.writable

/-- A request line as text. `rnd` is not written where the variant does not read it, nor `gran` (R55, R56). -/
def Line.chars : Line → List Char
  | .encode o => "ENCODE".toList ++ o.operandChars ++ granChars o.gran ++ fillChars o.fill ++ encodeRndChars o.rnd
  | .encodePm o => "ENCODE.PM".toList ++ o.operandChars ++ granChars o.gran
  | .encodeGen o => "ENCODE.GEN".toList ++ o.operandChars ++ encodeRndChars o.rnd
  | .decode desc descLen => "DECODE".toList ++ keyChars "desc" ++ hexNumber 16 desc.toNat ++ lenChars 64 descLen
  | .bswap desc descLen => "BSWAP".toList ++ keyChars "desc" ++ hexNumber 16 desc.toNat ++ lenChars 64 descLen
  | .randgen gran fill rnd => "RANDGEN".toList ++ granChars gran ++ fillChars fill ++ rndChars rnd
  | .randgenPm gran rnd => "RANDGEN.PM".toList ++ granChars gran ++ rndChars rnd
  | .randgenGen _ rnd => "RANDGEN.GEN".toList ++ rndChars rnd

/-- The name of an error kind (60_exceptions.md R112). -/
def ErrorKind.name : ErrorKind → String
  | .invalidFieldWidth => "InvalidFieldWidth"
  | .invalidAttributeCombination => "InvalidAttributeCombination"
  | .noAttributes => "NoAttributes"
  | .invalidLength => "InvalidLength"
  | .invalidOperation => "InvalidOperation"

/-- The label text of the type classification (R52). -/
def typeText (code : Bool) : String := if code then "Code" else "Data"

/-- The label text of the subtype classification (R52). -/
def SubtypeLabel.text : SubtypeLabel → String
  | .expandUp => "Expand up"
  | .notConforming => "Not conforming"
  | .conforming => "Conforming"

/-- The letters of the accessibility classification (R52, 41_decode.md R79). -/
def PermLabel.letters : PermLabel → List Char
  | .r => ['R']
  | .rw => ['R', 'W']
  | .x => ['X']
  | .xr => ['X', 'R']

/-- A text in double quotes. -/
def quoted (text : String) : List Char := [Char.ofNat 0x22] ++ text.toList ++ [Char.ofNat 0x22]

/-- Letters as a set in braces. -/
def braced (letters : List Char) : List Char :=
  [Char.ofNat 0x7B] ++ [','].intercalate (letters.map fun c => [c]) ++ [Char.ofNat 0x7D]

/-- The raw fields of a DECODE response line (R55). -/
def DescFields.chars (f : DescFields) : List Char :=
  keyChars "base" ++ hexNumber 8 f.base.toNat ++ keyChars "limit" ++ hexNumber 5 f.limit.toNat ++
    keyChars "G" ++ boolChars f.g ++ keyChars "D" ++ boolChars f.d ++ keyChars "L" ++ boolChars f.l ++
    keyChars "AVL" ++ boolChars f.avl ++ keyChars "P" ++ boolChars f.p ++ keyChars "DPL" ++ [hexDigit f.dpl.toNat] ++
    keyChars "S" ++ boolChars f.s ++ keyChars "Type" ++ boolChars f.type ++ keyChars "Sub" ++ boolChars f.subtype ++
    keyChars "Acc" ++ boolChars f.accessibility ++ keyChars "Acd" ++ boolChars f.accessed

/-- A response line as text, after its arrow (R55). -/
def Answer.chars : Answer → List Char
  | .word result advisory =>
      "OK".toList ++ keyChars "result" ++ hexNumber 16 result.toNat ++ keyChars "le" ++
        hexNumber 16 (bswap64 result).toNat ++ keyChars "adv" ++ boolChars advisory
  | .fields f =>
      "OK".toList ++ f.raw.chars ++ keyChars "type" ++ (typeText f.code).toList ++ keyChars "sub" ++
        quoted f.subtype.text ++ keyChars "perm" ++ braced f.perm.letters
  | .error kind => "ERR ".toList ++ kind.name.toList

end Sys2Proof.Machine
end

