-- ==== Sys2Proof/Safety.lean ====
section
/-! DEFINITION. What counts as a good response and a good state, in the terms the statements use: which response fields
can be non-zero by outcome (30_encoding.md R46), failing closed (60_exceptions.md R116), and the labels agreeing with
the raw bits (41_decode.md R77 to R79). And the response a request gets on its own (10_state.md R20). -/

namespace Sys2Proof.Machine

/-- The table of 30_encoding.md R46 on the response's own fields. -/
structure Response.Ok (r : Response) : Prop where
  /-- No request: nothing is non-zero (70_reset_and_hazards.md R128). -/
  idle : r.valid = false → r = Response.idle
  /-- 6 and 7 are never driven (R51). -/
  status_le : r.status.toNat ≤ 5
  /-- Any error: nothing but `status` (R116). -/
  failClosed : r.status ≠ 0 → r = { Response.idle with valid := true, status := r.status }
  /-- `result_le` is the byte reversal of `result` (R45). -/
  littleEndian : r.resultLe = bswap64 r.result
  /-- The advisory comes with a code descriptor only (40_encode.md R70). -/
  advisory_code : r.advisory = true → r.status = 0 ∧ r.result.getLsbD 43 = true
  /-- Without a permission label no decode field is driven (R46). -/
  noFields : r.lblPerm = 0 → r = { Response.idle with
    valid := r.valid, status := r.status, result := r.result, resultLe := r.resultLe, advisory := r.advisory }
  /-- With one, the response is DECODE's: no 64-bit result, and the labels of R77 to R79 for the raw bits. -/
  fields : r.lblPerm ≠ 0 → r.result = 0 ∧ r.advisory = false ∧ r.lblType = r.fType ∧
    r.lblSubtype = (if r.fType then (if r.fSubtype then 0b11 else 0b10) else 0b01) ∧
    r.lblPerm = (if r.fType then (if r.fAccessibility then 0b101 else 0b001)
      else (if r.fAccessibility then 0b110 else 0b100))

/-- The invariant of the machine: the response interface is as R46 says. It says nothing of the requests: every
request is legal (60_exceptions.md R121). -/
def State.Inv (s : State) : Prop := s.resp.Ok

/-- The response that a request gets when it is the only one ever presented, straight from an idle interface. -/
def respond (req : Request) : Response :=
  match step { requests := [req], resp := Response.idle } with
  | .next t => t.resp
  | .fault _ => Response.idle
  | .refused _ => Response.idle

end Sys2Proof.Machine
end

