-- ==== Sys2Proof/Certificates/Slice0/Obligations.lean ====
section
/-! DEFINITION. The statements. Each docstring names the rule it formalises. Where a statement needs the spec's layout or
multiplexers it writes them out here, in `Claims`, from the rule and not from the model's own functions.

Operation codes, status codes, label codes and `rnd` positions are decisions of the spec itself (92_eei_decisions.md D3,
D4, D7, D12), stated by its rules R47, R112, R52, R50. -/

namespace Sys2Proof.Claims
open Sys2Proof.Machine

/-- The response of an error: the status code and nothing else (R116). -/
def errorOnly (code : BitVec 3) : Response := { Response.idle with valid := true, status := code }

/-- The response of a 64-bit result: `result`, its byte reversal, the advisory, and nothing else (R46). -/
def wordOnly (result : Word) (advisory : Bool) : Response :=
  { Response.idle with valid := true, result := result, resultLe := bswap64 result, advisory := advisory }

/-- The ENCODE operations, each with the fill it runs under (R56). -/
abbrev EncodeForm (i : Instr) (fill : FillSel) : Prop :=
  i = .encode fill ∨ (i = .encodePm ∧ fill = 0x000#9) ∨ (i = .encodeGen ∧ fill = 0x1FF#9)

/-- The RANDGEN operations, each with the fill it runs under (R56). -/
abbrev RandgenForm (i : Instr) (fill : FillSel) : Prop :=
  i = .randgen fill ∨ (i = .randgenPm ∧ fill = 0x000#9) ∨ (i = .randgenGen ∧ fill = 0x1FF#9)

/-- The rows of the decision table that succeed, with the Type and Accessibility they give (R62, cases 1 and 4). -/
abbrev Accepts (readable executable writable type acc : Bool) : Prop :=
  ((readable = true ∨ executable = true) ∧ writable = false ∧ type = true ∧ acc = readable) ∨
    (executable = false ∧ writable = true ∧ type = false ∧ acc = writable)

/-- The request meets ENCODE's width check and its attributes give Type and Accessibility. -/
abbrev EncodeOk (req : Request) (type acc : Bool) : Prop :=
  req.baseLen = 32 ∧ req.limitLen = 20 ∧ Accepts req.readable req.executable req.writable type acc

/-- The drawn triple, `rnd[12]`, `rnd[11]`, `rnd[10]` (R50), gives Type and Accessibility. -/
abbrev DrawOk (req : Request) (type acc : Bool) : Prop :=
  Accepts (req.rnd.getLsbD 12) (req.rnd.getLsbD 11) (req.rnd.getLsbD 10) type acc

/-- One 1-bit value. -/
abbrev one (b : Bool) : BitVec 1 := BitVec.ofBool b

/-- R67: `base[31:24] · flags · limit[19:16] · access · base[23:16] · base[15:0] · limit[15:0]`. -/
def layout (base : Base) (limit : Limit) (flags : BitVec 4) (access : BitVec 8) : Word :=
  base.extractLsb' 24 8 ++ flags ++ limit.extractLsb' 16 4 ++ access ++ base.extractLsb' 16 8 ++
    base.extractLsb' 0 16 ++ limit.extractLsb' 0 16

/-- R66: `G_fixed = if gran_present then gran else 1`. -/
def gFixed (req : Request) : Bool := if req.granPresent then req.gran else true

/-- R65: `G · D · L · AVL`, each the output of its multiplexer. -/
def flagsOf (fill : FillSel) (req : Request) : BitVec 4 :=
  one (if fill.getLsbD 8 then req.rnd.getLsbD 9 else gFixed req) ++
    one (if fill.getLsbD 7 then req.rnd.getLsbD 8 else true) ++
    one (if fill.getLsbD 6 then req.rnd.getLsbD 7 else false) ++
    one (if fill.getLsbD 5 then req.rnd.getLsbD 6 else false)

/-- R65: `P · DPL · S · Type · Subtype · Accessibility · Accessed`, the unconstrained ones from their multiplexers. -/
def accessOf (fill : FillSel) (req : Request) (type acc : Bool) : BitVec 8 :=
  one (if fill.getLsbD 4 then req.rnd.getLsbD 5 else true) ++
    (if fill.getLsbD 3 then req.rnd.extractLsb' 3 2 else 0b00#2) ++
    one (if fill.getLsbD 2 then req.rnd.getLsbD 2 else true) ++ one type ++
    one (if fill.getLsbD 1 then req.rnd.getLsbD 1 else false) ++ one acc ++
    one (if fill.getLsbD 0 then req.rnd.getLsbD 0 else false)

/-- The two digits of byte `k`, `d[8k+7:8k]`, its high nibble first. -/
def twoDigits (d : Word) (k : Nat) : List Char :=
  [hexDigit (d.extractLsb' (8 * k + 4) 4).toNat, hexDigit (d.extractLsb' (8 * k) 4).toNat]

/-- The state with other attributes on the request presented. -/
def withAttributes (s : State) (readable executable writable : Bool) : State :=
  { s with requests := { s.req with readable := readable, executable := executable, writable := writable } ::
      s.requests.tail }

/-- What ENCODE and RANDGEN read of the optional granularity (R44): `gran_present` only if `fill_sel[8] = 0`, `gran`
only if it is then 1. -/
abbrev SameGran (req req' : Request) : Prop :=
  req.fillSel.getLsbD 8 = false →
    req.granPresent = req'.granPresent ∧ (req.granPresent = true → req.gran = req'.gran)

/-- What ENCODE and RANDGEN read of `rnd[9:0]` (R44, R50): each bit only if its `fill_sel` bit is 1. -/
abbrev SameFill (req req' : Request) : Prop :=
  (req.fillSel.getLsbD 8 = true → req.rnd.getLsbD 9 = req'.rnd.getLsbD 9) ∧
  (req.fillSel.getLsbD 7 = true → req.rnd.getLsbD 8 = req'.rnd.getLsbD 8) ∧
  (req.fillSel.getLsbD 6 = true → req.rnd.getLsbD 7 = req'.rnd.getLsbD 7) ∧
  (req.fillSel.getLsbD 5 = true → req.rnd.getLsbD 6 = req'.rnd.getLsbD 6) ∧
  (req.fillSel.getLsbD 4 = true → req.rnd.getLsbD 5 = req'.rnd.getLsbD 5) ∧
  (req.fillSel.getLsbD 3 = true → req.rnd.extractLsb' 3 2 = req'.rnd.extractLsb' 3 2) ∧
  (req.fillSel.getLsbD 2 = true → req.rnd.getLsbD 2 = req'.rnd.getLsbD 2) ∧
  (req.fillSel.getLsbD 1 = true → req.rnd.getLsbD 1 = req'.rnd.getLsbD 1) ∧
  (req.fillSel.getLsbD 0 = true → req.rnd.getLsbD 0 = req'.rnd.getLsbD 0)

/-- Two requests agree on everything that their operation reads (the table of R44). -/
abbrev SameReads (req req' : Request) : Prop :=
  (req.op = 0 → req.fillSel = req'.fillSel ∧ req.baseLen = req'.baseLen ∧ req.limitLen = req'.limitLen ∧
    (req.baseLen = 32 ∧ req.limitLen = 20 → req.base = req'.base ∧ req.limit = req'.limit ∧
      req.readable = req'.readable ∧ req.executable = req'.executable ∧ req.writable = req'.writable) ∧
    SameGran req req' ∧ SameFill req req') ∧
  (req.op = 1 ∨ req.op = 2 → req.descLen = req'.descLen ∧ (req.descLen = 64 → req.desc = req'.desc)) ∧
  (req.op = 3 → req.fillSel = req'.fillSel ∧ req.rnd.extractLsb' 10 55 = req'.rnd.extractLsb' 10 55 ∧
    SameGran req req' ∧ SameFill req req')

end Sys2Proof.Claims

open Sys2Proof Sys2Proof.Machine Sys2Proof.Claims

/-! ## Encoding -/

/-- R47, R49, R56, R57: selectors written out bit by bit, `op` then `fill_sel`, decode to the operation they stand for.
That the pseudo rows are taken over their base rows is the model's choice, log entry 5. -/
def Obligations.SelectorWordsDecode : Prop :=
  decodeTableWord 16 0b000_000001000 = some (.encode 0x008) ∧ decodeTableWord 16 0b000_000000000 = some .encodePm ∧
  decodeTableWord 16 0b000_111111111 = some .encodeGen ∧ decodeTableWord 16 0b001_000000000 = some .decode ∧
  decodeTableWord 16 0b010_000000000 = some .bswap ∧ decodeTableWord 16 0b011_100000000 = some (.randgen 0x100) ∧
  decodeTableWord 16 0b011_000000000 = some .randgenPm ∧ decodeTableWord 16 0b011_111111111 = some .randgenGen ∧
  decodeTableWord 16 0b100_000000000 = some (.reserved 4) ∧ decodeTableWord 16 0b111_000000000 = some (.reserved 7)

/-- Decoding an encoded well-formed operation, of every constructor and with every operand, gives it back. -/
def Obligations.DecodeOfEncodeIsIdentity : Prop :=
  ∀ i : Instr, i.wf = true →
    decodeWord (encode i).toNat = .ok i ∧ decodeTableWord 12 (encode i).toNat = some i ∧
      decodeTableWord 16 (encode i).toNat = some i

/-- R57: every 12-bit selector decodes to a well-formed operation whose table row it lies in (`sel & mask = match`),
under its own `op` and, for ENCODE and RANDGEN (R47), its own `fill_sel`; only selectors with `op[2] = 1` are reserved
(R48). As `Instr.wf` leaves the base rows only the fills that no pseudo row has, the row is the most specific one: the
model's choice, log entry 5. -/
def Obligations.EverySelectorDecodesInItsRow : Prop :=
  ∀ sel : Selector, ∃ i, decodeWord sel.toNat = .ok i ∧ i.wf = true ∧ sel &&& i.row.2 = i.row.1 ∧
    i.opCode = sel.extractLsb' 9 3 ∧
    (sel.extractLsb' 9 3 = 0 ∨ sel.extractLsb' 9 3 = 3 → i.fillField = sel.extractLsb' 0 9) ∧
    ((∃ op, i = .reserved op) ↔ sel.getLsbD 11 = true)

/-- R57 (`sel[11:0]`): a number that is no 12-bit selector is refused by name. The model's choice, log entry 4. -/
def Obligations.NumbersBeyondTheSelectorAreRefused : Prop :=
  ∀ w : Nat, 4096 ≤ w → decodeWord w = .error .outsideSelector

/-! ## The step -/

/-- When the `op` and `fill_sel` of the request presented decode to an operation, a step is that operation, after which
the host goes on to its next request (R47, R42; the list of requests is the model's, log entry 2). -/
def Obligations.StepRunsTheSelectedOperation : Prop :=
  ∀ (s : State) (i : Instr), s.req.valid = true → decodeWord (s.req.op ++ s.req.fillSel).toNat = .ok i →
    ∃ t, exec i s = .next t ∧ step s = .next { t with requests := s.requests.tail }

/-- A word placed on the request interface by `withFetchWord` is the operation that the very next step runs (log
entries 2 and 4). -/
def Obligations.PlacedWordRunsNext : Prop :=
  ∀ (s : State) (nbits w : Nat) (i : Instr), decodeTableWord nbits w = some i →
    ∃ t, exec i (s.withFetchWord nbits w) = .next t ∧
      step (s.withFetchWord nbits w) = .next { t with requests := s.requests.tail }

/-- R128: with no request presented every response field is 0, whatever the last response was and whatever stands on
the other request fields; the host does not read that as a success. -/
def Obligations.NoRequestDrivesTheIdleResponse : Prop :=
  ∀ s : State, s.req.valid = false →
    step s = .next { requests := s.requests.tail, resp := Response.idle } ∧ Response.idle.read = none ∧
      Response.idle = ⟨false, 0, 0, 0, false, 0, 0, false, false, false, false, false, 0, false, false, false, false,
        false, false, 0, 0⟩

/-- R23, R127, R128: after reset no request is presented, every response field is 0, and steps change nothing. The empty
list of requests is the model's choice, log entry 2. -/
def Obligations.ResetIsIdleAndStays : Prop :=
  State.reset.requests = [] ∧
    State.reset.resp = ⟨false, 0, 0, 0, false, 0, 0, false, false, false, false, false, 0, false, false, false, false,
      false, false, 0, 0⟩ ∧ step State.reset = .next State.reset

/-- The invariant of 30_encoding.md R46 holds after reset. -/
def Obligations.ResetMeetsTheResponseTable : Prop := State.reset.Inv

/-- R46, R116, R51, R52: every step answers a next state, and keeps the table of which response fields can be
non-zero. -/
def Obligations.StepKeepsTheResponseTable : Prop :=
  ∀ s : State, s.Inv → ∃ t, step s = .next t ∧ t.Inv

/-- R121, R12: every request gets exactly one response, a success or one error kind, which the host can read. -/
def Obligations.EveryRequestGetsOneResponse : Prop :=
  ∀ s : State, ∃ t, step s = .next t ∧ t.requests = s.requests.tail ∧ t.resp.valid = s.req.valid ∧
    (s.req.valid = true → ∃ a, t.resp = Answer.drive a ∧ t.resp.read = some a)

/-- R20: the response is a function of the request and its `rnd`, and of nothing else: one response for a request,
whatever was served before and whatever waits. -/
def Obligations.ResponseIsFunctionOfItsRequest : Prop :=
  ∀ req : Request, ∃ r : Response, ∀ s : State, s.req = req →
    step s = .next { requests := s.requests.tail, resp := r }

/-- R33, R20, R121, R129, R131, R135: of any sequence of requests, from any earlier response, the response after step
`k + 1` is the one that request `k` gets on its own; one response per request, in the order of the requests. That the
requests are a list of which a step serves the head is the model's choice, log entry 2. -/
def Obligations.ResponsesComeInOrderAndAlone : Prop :=
  ∀ (reqs : List Request) (before : Response) (k : Nat) (h : k < reqs.length),
    Host.Core.run Sys2Proof.core (k + 1) ({ requests := reqs, resp := before } : State) =
      .next ({ requests := reqs.drop (k + 1), resp := respond reqs[k] } : State)

/-- R22, R127, R128: once the last request is served the machine is back in its state after reset, and stays there. The
list of requests is the model's choice, log entry 2. -/
def Obligations.MachineReturnsToResetState : Prop :=
  ∀ (reqs : List Request) (before : Response) (k : Nat), reqs.length ≤ k →
    Host.Core.run Sys2Proof.core (k + 1) ({ requests := reqs, resp := before } : State) = .next State.reset

/-- R112, R119: each status code is driven exactly for its causes, the first in the order of R119, and 6 and 7 never. -/
def Obligations.StatusNamesTheFirstCause : Prop :=
  ∀ s : State, s.req.valid = true → ∃ t, step s = .next t ∧
    (t.resp.status = 5 ↔ 4 ≤ s.req.op.toNat) ∧
    (t.resp.status = 1 ↔ s.req.op = 0 ∧ (s.req.baseLen ≠ 32 ∨ s.req.limitLen ≠ 20)) ∧
    (t.resp.status = 2 ↔
      (s.req.op = 0 ∧ s.req.baseLen = 32 ∧ s.req.limitLen = 20 ∧ s.req.executable = true ∧ s.req.writable = true) ∨
      (s.req.op = 3 ∧ s.req.rnd.getLsbD 11 = true ∧ s.req.rnd.getLsbD 10 = true)) ∧
    (t.resp.status = 3 ↔
      (s.req.op = 0 ∧ s.req.baseLen = 32 ∧ s.req.limitLen = 20 ∧
        s.req.readable = false ∧ s.req.executable = false ∧ s.req.writable = false) ∨
      (s.req.op = 3 ∧ s.req.rnd.getLsbD 12 = false ∧ s.req.rnd.getLsbD 11 = false ∧ s.req.rnd.getLsbD 10 = false)) ∧
    (t.resp.status = 4 ↔ (s.req.op = 1 ∨ s.req.op = 2) ∧ s.req.descLen ≠ 64) ∧
    t.resp.status ≠ 6 ∧ t.resp.status ≠ 7

/-- R44: requests that agree on what their operation reads get the same response, whatever stands elsewhere. -/
def Obligations.UnreadRequestFieldsAreIgnored : Prop :=
  ∀ s s' : State, s.req.valid = true → s'.req.valid = true → s.req.op = s'.req.op → SameReads s.req s'.req →
    ∃ t t', step s = .next t ∧ step s' = .next t' ∧ t.resp = t'.resp

/-- R70: the advisory is 1 exactly when ADVISORY_EN, the operation is ENCODE or RANDGEN, it succeeded, and Type is 1.
The condition is the spec's own decision (D13) and ADVISORY_EN's value is log entry 6; the statement holds for either. -/
def Obligations.AdvisoryMarksCodeDescriptors : Prop :=
  ∀ s : State, s.req.valid = true → ∃ t, step s = .next t ∧
    (t.resp.advisory = true ↔ Config.advisoryEn = true ∧ (s.req.op = 0 ∨ s.req.op = 3) ∧ t.resp.status = 0 ∧
      t.resp.result.getLsbD 43 = true)

/-- R45: an operation answers a next state in which the host's requests are as they were and every response field that
it does not produce is 0 (the frame of every operation). -/
def Obligations.OperationsDriveOnlyTheirFields : Prop :=
  ∀ (i : Instr) (s : State), ∃ t, exec i s = .next t ∧ t.requests = s.requests ∧
    (∀ fill, EncodeForm i fill ∨ RandgenForm i fill → t.resp = { Response.idle with
      valid := true, status := t.resp.status, result := t.resp.result, resultLe := t.resp.resultLe
      advisory := t.resp.advisory }) ∧
    (i = .decode → t.resp.valid = true ∧ t.resp.result = 0 ∧ t.resp.resultLe = 0 ∧ t.resp.advisory = false) ∧
    (i = .bswap → t.resp = { Response.idle with
      valid := true, status := t.resp.status, result := t.resp.result, resultLe := t.resp.resultLe }) ∧
    (∀ op, i = .reserved op → t.resp = { Response.idle with valid := true, status := t.resp.status })

/-! ## ENCODE -/

/-- R60: a wrong tag on either operand fails with `InvalidFieldWidth`, status 1, in all three ENCODE operations,
whatever the values and the attributes. -/
def Obligations.EncodeRefusesWrongWidths : Prop :=
  ∀ (i : Instr) (fill : FillSel) (s : State), EncodeForm i fill → s.req.baseLen ≠ 32 ∨ s.req.limitLen ≠ 20 →
    exec i s = .next { s with resp := errorOnly 1 }

/-- R114: with right widths, `executable` and `writable` together fail, status 2, whatever `readable` is; `advisory`
is not set. -/
def Obligations.EncodeRefusesWritableCode : Prop :=
  ∀ (i : Instr) (fill : FillSel) (s : State), EncodeForm i fill → s.req.baseLen = 32 → s.req.limitLen = 20 →
    s.req.executable = true → s.req.writable = true → exec i s = .next { s with resp := errorOnly 2 }

/-- R115: with right widths, no attribute at all fails, status 3. -/
def Obligations.EncodeRefusesNoAttributes : Prop :=
  ∀ (i : Instr) (fill : FillSel) (s : State), EncodeForm i fill → s.req.baseLen = 32 → s.req.limitLen = 20 →
    s.req.readable = false → s.req.executable = false → s.req.writable = false →
    exec i s = .next { s with resp := errorOnly 3 }

/-- R67, with the classes of R62, the fixed values of R64, the multiplexers of R65 and R66 (the spec's D7, D8, D9),
`result_le` of R69 (D16) and the advisory of R70 (D13): with right widths and an accepted triple, ENCODE completes, and
its descriptor is the canonical assembly. ADVISORY_EN's value is log entry 6; the statement holds for either. -/
def Obligations.EncodeAssemblesTheDescriptor : Prop :=
  ∀ (fill : FillSel) (s : State) (type acc : Bool), EncodeOk s.req type acc →
    exec (.encode fill) s = .next { s with resp :=
      (wordOnly (layout s.req.base s.req.limit (flagsOf fill s.req) (accessOf fill s.req type acc))
        (Config.advisoryEn && type)) }

/-- R64: the protected-mode canonical variant fixes AVL = 0, L = 0, D = 1, G from `granularity_extended`, S = 1,
DPL = 00, P = 1, Subtype = 0, Accessed = 0, whatever `rnd` is. -/
def Obligations.EncodePmFixesTheUnconstrainedFields : Prop :=
  ∀ (s : State) (type acc : Bool), EncodeOk s.req type acc →
    exec .encodePm s = .next { s with resp :=
      (wordOnly (layout s.req.base s.req.limit (one (gFixed s.req) ++ 0b100#3)
        (0b1001#4 ++ one type ++ 0b0#1 ++ one acc ++ 0b0#1)) (Config.advisoryEn && type)) }

/-- R65, R56: the generic variant takes the nine unconstrained fields from `rnd[9:0]`, in descriptor order; Type and
Accessibility are never random. -/
def Obligations.EncodeGenTakesTheDrawnFields : Prop :=
  ∀ (s : State) (type acc : Bool), EncodeOk s.req type acc →
    exec .encodeGen s = .next { s with resp :=
      (wordOnly (layout s.req.base s.req.limit (s.req.rnd.extractLsb' 6 4)
        (s.req.rnd.extractLsb' 2 4 ++ one type ++ one (s.req.rnd.getLsbD 1) ++ one acc ++ one (s.req.rnd.getLsbD 0)))
        (Config.advisoryEn && type)) }

/-- R56: the four pseudo-operations do what their expansions do. -/
def Obligations.PseudoOperationsAreTheirExpansions : Prop :=
  ∀ s : State, exec .encodePm s = exec (.encode 0x000#9) s ∧ exec .encodeGen s = exec (.encode 0x1FF#9) s ∧
    exec .randgenPm s = exec (.randgen 0x000#9) s ∧ exec .randgenGen s = exec (.randgen 0x1FF#9) s

/-- R63 (a), (b): `readable` alone builds the same descriptor as with `executable`; and a writable segment is the same
with and without `readable`. -/
def Obligations.AttributeTriplesOfOneClassAgree : Prop :=
  ∀ (i : Instr) (fill : FillSel) (s : State), EncodeForm i fill →
    (∃ r, exec i (withAttributes s true false false) = .next { withAttributes s true false false with resp := r } ∧
      exec i (withAttributes s true true false) = .next { withAttributes s true true false with resp := r }) ∧
    (∃ r, exec i (withAttributes s false false true) = .next { withAttributes s false false true with resp := r } ∧
      exec i (withAttributes s true false true) = .next { withAttributes s true false true with resp := r })

/-- R110: in two successful ENCODE operations under any fills, granularities and draws, each result bit can differ only
where the one input bit, or multiplexer output, of its row differs. In particular G never changes the limit bits. -/
def Obligations.ResultBitsDependOnTheirRowOnly : Prop :=
  ∀ (fill fill' : FillSel) (s s' : State) (type acc type' acc' : Bool),
    EncodeOk s.req type acc → EncodeOk s'.req type' acc' →
    ∃ t t', exec (.encode fill) s = .next t ∧ exec (.encode fill') s' = .next t' ∧
      (∀ j, j < 24 → s.req.base.getLsbD j = s'.req.base.getLsbD j →
        t.resp.result.getLsbD (16 + j) = t'.resp.result.getLsbD (16 + j)) ∧
      (∀ j, 24 ≤ j → j < 32 → s.req.base.getLsbD j = s'.req.base.getLsbD j →
        t.resp.result.getLsbD (32 + j) = t'.resp.result.getLsbD (32 + j)) ∧
      (∀ j, j < 16 → s.req.limit.getLsbD j = s'.req.limit.getLsbD j →
        t.resp.result.getLsbD j = t'.resp.result.getLsbD j) ∧
      (∀ j, 16 ≤ j → j < 20 → s.req.limit.getLsbD j = s'.req.limit.getLsbD j →
        t.resp.result.getLsbD (32 + j) = t'.resp.result.getLsbD (32 + j)) ∧
      (∀ j, j < 4 → (flagsOf fill s.req).getLsbD j = (flagsOf fill' s'.req).getLsbD j →
        t.resp.result.getLsbD (52 + j) = t'.resp.result.getLsbD (52 + j)) ∧
      (∀ j, j < 8 → (accessOf fill s.req type acc).getLsbD j = (accessOf fill' s'.req type' acc').getLsbD j →
        t.resp.result.getLsbD (40 + j) = t'.resp.result.getLsbD (40 + j)) ∧
      (type = type' → t.resp.result.getLsbD 43 = t'.resp.result.getLsbD 43) ∧
      (acc = acc' → t.resp.result.getLsbD 41 = t'.resp.result.getLsbD 41)

/-- R104: for a fixed fill, granularity and draw, two successful ENCODE operations give the same descriptor exactly when
base, limit and class are the same. -/
def Obligations.EncodeIsInjective : Prop :=
  ∀ (fill : FillSel) (s s' : State) (type acc type' acc' : Bool),
    EncodeOk s.req type acc → EncodeOk s'.req type' acc' → gFixed s.req = gFixed s'.req → s.req.rnd = s'.req.rnd →
    ∃ t t', exec (.encode fill) s = .next t ∧ exec (.encode fill) s' = .next t' ∧
      (t.resp.result = t'.resp.result ↔
        s.req.base = s'.req.base ∧ s.req.limit = s'.req.limit ∧ type = type' ∧ acc = acc')

/-- R105: no successful ENCODE or RANDGEN, under any fill and draw, builds a read-only data segment. -/
def Obligations.ReadOnlyDataIsNeverBuilt : Prop :=
  ∀ (i : Instr) (fill : FillSel) (s : State), EncodeForm i fill ∨ RandgenForm i fill →
    ∃ t, exec i s = .next t ∧
      (t.resp.status = 0 → ¬ (t.resp.result.getLsbD 43 = false ∧ t.resp.result.getLsbD 41 = false))

/-- R105: the generic variant reaches exactly the words whose bits 43 and 41 are not both 0. -/
def Obligations.EncodeGenReachesEveryOtherWord : Prop :=
  ∀ d : Word,
    (∃ s t : State, exec .encodeGen s = .next t ∧ t.resp.status = 0 ∧ t.resp.result = d) ↔
      ¬ (d.getLsbD 43 = false ∧ d.getLsbD 41 = false)

/-- R105: the protected-mode canonical variant reaches exactly the words with `d[54:52] = 100`, `d[47:44] = 1001`,
`d[42] = 0`, `d[40] = 0` whose bits 43 and 41 are not both 0. -/
def Obligations.EncodePmReachesTheCanonicalWords : Prop :=
  ∀ d : Word,
    (∃ s t : State, exec .encodePm s = .next t ∧ t.resp.status = 0 ∧ t.resp.result = d) ↔
      d.extractLsb' 52 3 = 0b100#3 ∧ d.extractLsb' 44 4 = 0b1001#4 ∧ d.getLsbD 42 = false ∧ d.getLsbD 40 = false ∧
        ¬ (d.getLsbD 43 = false ∧ d.getLsbD 41 = false)

/-! ## DECODE -/

/-- R81: DECODE whole. An operand of another width fails with `InvalidLength`, status 4, unread; every 64-bit value
succeeds, with every field from its bits and the three labels. -/
def Obligations.DecodeExtractsEveryField : Prop :=
  ∀ s : State,
    (s.req.descLen ≠ 64 → exec .decode s = .next { s with resp := errorOnly 4 }) ∧
    (s.req.descLen = 64 → exec .decode s = .next { s with resp :=
      { valid := true
        status := 0
        result := 0
        resultLe := 0
        advisory := false
        fBase := s.req.desc.extractLsb' 56 8 ++ s.req.desc.extractLsb' 32 8 ++ s.req.desc.extractLsb' 16 16
        fLimit := s.req.desc.extractLsb' 48 4 ++ s.req.desc.extractLsb' 0 16
        fG := s.req.desc.getLsbD 55
        fD := s.req.desc.getLsbD 54
        fL := s.req.desc.getLsbD 53
        fAvl := s.req.desc.getLsbD 52
        fP := s.req.desc.getLsbD 47
        fDpl := s.req.desc.extractLsb' 45 2
        fS := s.req.desc.getLsbD 44
        fType := s.req.desc.getLsbD 43
        fSubtype := s.req.desc.getLsbD 42
        fAccessibility := s.req.desc.getLsbD 41
        fAccessed := s.req.desc.getLsbD 40
        lblType := s.req.desc.getLsbD 43
        lblSubtype := if s.req.desc.getLsbD 43 = false then 0b01 else if s.req.desc.getLsbD 42 = false then 0b10 else 0b11
        lblPerm := if s.req.desc.getLsbD 43 = false then 0b1#1 ++ one (s.req.desc.getLsbD 41) ++ 0b0#1
          else one (s.req.desc.getLsbD 41) ++ 0b0#1 ++ 0b1#1 } })

/-- R78, R79: the label codes, and what the host reads from them: "Expand up" for data of either Subtype, and "R" always
and "W" with Accessibility; for code "Not conforming" or "Conforming", and "X" always and "R" with Accessibility. -/
def Obligations.DecodeLabelsFollowTypeBits : Prop :=
  ∀ s : State, s.req.descLen = 64 → ∃ t f, exec .decode s = .next t ∧ t.resp.read = some (.fields f) ∧
    (s.req.desc.getLsbD 43 = false → f.code = false ∧ t.resp.lblType = false ∧
      f.subtype = .expandUp ∧ t.resp.lblSubtype = 0b01#2 ∧
      (s.req.desc.getLsbD 41 = false → f.perm = .r ∧ t.resp.lblPerm = 0b100#3) ∧
      (s.req.desc.getLsbD 41 = true → f.perm = .rw ∧ t.resp.lblPerm = 0b110#3)) ∧
    (s.req.desc.getLsbD 43 = true → f.code = true ∧ t.resp.lblType = true ∧
      (s.req.desc.getLsbD 42 = false → f.subtype = .notConforming ∧ t.resp.lblSubtype = 0b10#2) ∧
      (s.req.desc.getLsbD 42 = true → f.subtype = .conforming ∧ t.resp.lblSubtype = 0b11#2) ∧
      (s.req.desc.getLsbD 41 = false → f.perm = .x ∧ t.resp.lblPerm = 0b001#3) ∧
      (s.req.desc.getLsbD 41 = true → f.perm = .xr ∧ t.resp.lblPerm = 0b101#3))

/-- R37, R75: every one of the 64 bits is assigned, so two descriptors with the same DECODE response are the same. -/
def Obligations.DecodeLosesNoBit : Prop :=
  ∀ s s' : State, s.req.descLen = 64 → s'.req.descLen = 64 →
    ∃ t t', exec .decode s = .next t ∧ exec .decode s' = .next t' ∧ (t.resp = t'.resp → s.req.desc = s'.req.desc)

/-- R101, R102: DECODE of an ENCODE result, under any fill and draw, returns the base, the limit, the Type and
Accessibility, and every unconstrained field as its multiplexer gave it. -/
def Obligations.DecodeOfEncodeResultReturnsItsFields : Prop :=
  ∀ (fill : FillSel) (s : State) (type acc : Bool), EncodeOk s.req type acc →
    ∃ t, exec (.encode fill) s = .next t ∧ t.resp.status = 0 ∧
      ∀ s' : State, s'.req.descLen = 64 → s'.req.desc = t.resp.result →
        ∃ u, exec .decode s' = .next u ∧ u.resp.status = 0 ∧
          u.resp.fBase = s.req.base ∧ u.resp.fLimit = s.req.limit ∧ u.resp.fType = type ∧
          u.resp.fAccessibility = acc ∧
          u.resp.fG = (if fill.getLsbD 8 then s.req.rnd.getLsbD 9 else gFixed s.req) ∧
          u.resp.fD = (if fill.getLsbD 7 then s.req.rnd.getLsbD 8 else true) ∧
          u.resp.fL = (if fill.getLsbD 6 then s.req.rnd.getLsbD 7 else false) ∧
          u.resp.fAvl = (if fill.getLsbD 5 then s.req.rnd.getLsbD 6 else false) ∧
          u.resp.fP = (if fill.getLsbD 4 then s.req.rnd.getLsbD 5 else true) ∧
          u.resp.fDpl = (if fill.getLsbD 3 then s.req.rnd.extractLsb' 3 2 else 0b00) ∧
          u.resp.fS = (if fill.getLsbD 2 then s.req.rnd.getLsbD 2 else true) ∧
          u.resp.fSubtype = (if fill.getLsbD 1 then s.req.rnd.getLsbD 1 else false) ∧
          u.resp.fAccessed = (if fill.getLsbD 0 then s.req.rnd.getLsbD 0 else false)

/-! ## BSWAP -/

/-- R84: byte `k` of the reversed value is byte `7-k`, and the bits inside each byte keep their order. -/
def Obligations.ByteReversalKeepsBitsInBytes : Prop :=
  ∀ (v : Word) (k j : Nat), k < 8 → j < 8 →
    (bswap64 v).extractLsb' (8 * k) 8 = v.extractLsb' (8 * (7 - k)) 8 ∧
      (bswap64 v).getLsbD (8 * k + j) = v.getLsbD (8 * (7 - k) + j)

/-- R87: the byte reversal is its own inverse, for every 64-bit value, and so a bijection. -/
def Obligations.ByteReversalIsAnInvolution : Prop :=
  (∀ v : Word, bswap64 (bswap64 v) = v) ∧ Function.Bijective bswap64

/-- R88: a value is a fixed point exactly when its bytes read the same in both directions. -/
def Obligations.ByteReversalFixesPalindromes : Prop :=
  ∀ v : Word, bswap64 v = v ↔ ∀ k, k < 4 → v.extractLsb' (8 * k) 8 = v.extractLsb' (8 * (7 - k)) 8

/-- R85, R86: BSWAP whole. `result` is the reversed operand, `result_le` the operand itself, no advisory; another width
fails with `InvalidLength`, status 4, unread. -/
def Obligations.BswapReversesItsOperand : Prop :=
  ∀ s : State,
    (s.req.descLen ≠ 64 → exec .bswap s = .next { s with resp := errorOnly 4 }) ∧
    (s.req.descLen = 64 → exec .bswap s = .next { s with resp := { Response.idle with
      valid := true
      result := s.req.desc.extractLsb' 0 8 ++ s.req.desc.extractLsb' 8 8 ++ s.req.desc.extractLsb' 16 8 ++
        s.req.desc.extractLsb' 24 8 ++ s.req.desc.extractLsb' 32 8 ++ s.req.desc.extractLsb' 40 8 ++
        s.req.desc.extractLsb' 48 8 ++ s.req.desc.extractLsb' 56 8
      resultLe := s.req.desc } })

/-! ## RANDGEN -/

/-- R94, R91: RANDGEN drives the response that ENCODE drives for the drawn operands, under the same fill, granularity
and draw, in all three RANDGEN operations. -/
def Obligations.RandgenIsEncodeOfTheDraw : Prop :=
  ∀ (i : Instr) (fill : FillSel) (s : State), RandgenForm i fill → ∃ r : Response,
    exec i s = .next { s with resp := r } ∧
    ∀ s' : State, s'.req = { s.req with
        baseLen := 32, base := s.req.rnd.extractLsb' 33 32, limitLen := 20, limit := s.req.rnd.extractLsb' 13 20
        readable := s.req.rnd.getLsbD 12, executable := s.req.rnd.getLsbD 11, writable := s.req.rnd.getLsbD 10 } →
      exec (.encode fill) s' = .next { s' with resp := r }

/-- R90, R94: with an accepted drawn triple the RANDGEN operations complete, with the descriptor of the drawn base,
limit and class; the request's own operands and tags make no difference (R95). -/
def Obligations.RandgenAssemblesTheDrawnDescriptor : Prop :=
  ∀ (i : Instr) (fill : FillSel) (s : State) (type acc : Bool), RandgenForm i fill → DrawOk s.req type acc →
    exec i s = .next { s with resp :=
      (wordOnly (layout (s.req.rnd.extractLsb' 33 32) (s.req.rnd.extractLsb' 13 20) (flagsOf fill s.req)
        (accessOf fill s.req type acc)) (Config.advisoryEn && type)) }

/-- R92: RANDGEN fails exactly when the drawn triple is (0,0,0), with status 3, or has `executable = writable = 1`, with
status 2. -/
def Obligations.RandgenFailsOnRejectedTriples : Prop :=
  ∀ (i : Instr) (fill : FillSel) (s : State), RandgenForm i fill →
    (s.req.rnd.getLsbD 11 = true → s.req.rnd.getLsbD 10 = true → exec i s = .next { s with resp := errorOnly 2 }) ∧
    (s.req.rnd.getLsbD 12 = false → s.req.rnd.getLsbD 11 = false → s.req.rnd.getLsbD 10 = false →
      exec i s = .next { s with resp := errorOnly 3 }) ∧
    (¬ (s.req.rnd.getLsbD 11 = true ∧ s.req.rnd.getLsbD 10 = true) →
      ¬ (s.req.rnd.getLsbD 12 = false ∧ s.req.rnd.getLsbD 11 = false ∧ s.req.rnd.getLsbD 10 = false) →
      ∃ t, exec i s = .next t ∧ t.resp.status = 0)

/-- R92, conflict C2: whatever the other 62 bits of the draw and the rest of the request, RANDGEN fails for exactly
three of the eight drawn triples: two with status 2, one with status 3. -/
def Obligations.RandgenFailsForThreeOfEightTriples : Prop :=
  ∀ (req : Request) (hi : BitVec 52) (lo : BitVec 10), req.valid = true → req.op = 3 →
    ((List.range 8).map fun n => (respond { req with rnd := hi ++ BitVec.ofNat 3 n ++ lo }).status).count 0 = 5 ∧
    ((List.range 8).map fun n => (respond { req with rnd := hi ++ BitVec.ofNat 3 n ++ lo }).status).count 2 = 2 ∧
    ((List.range 8).map fun n => (respond { req with rnd := hi ++ BitVec.ofNat 3 n ++ lo }).status).count 3 = 1

/-! ## Reserved codes -/

/-- R48, R118: a reserved `op` gives `InvalidOperation`, status 5, and nothing else of the request is read. -/
def Obligations.ReservedCodesAreInvalidOperations : Prop :=
  (∀ (op : OpCode) (s : State), exec (.reserved op) s = .next { s with resp := errorOnly 5 }) ∧
    ∀ s : State, s.req.valid = true → s.req.op.getLsbD 2 = true →
      step s = .next { requests := s.requests.tail, resp := errorOnly 5 }

/-! ## The host's side -/

/-- R12, R116: the host that tests `resp_valid` and `status` first reads back from a response exactly the outcome that
was driven, so no error is taken for a result and no two outcomes share a response. -/
def Obligations.HostReadsBackTheOutcome : Prop := ∀ a : Answer, a.drive.read = some a

/-- R96: the big-endian bit string is the 64 characters of the result, `result[63]` first and `result[0]` last. -/
def Obligations.BitStringListsBitsFromTheTop : Prop :=
  ∀ d : Word, (bigEndianBits d).length = 64 ∧
    ∀ k, k < 64 → (bigEndianBits d)[k]? = some (if d.getLsbD (63 - k) then '1' else '0')

/-- R97, R98, R99. The digits are `0` to `9` and `a` to `f`. The big-endian string is 16 digits, that of the highest
nibble first; the little-endian one is that of `result_le`, and equally the bytes of the result from byte 0, two digits
each; the byte literal is `db ` and the bytes from byte 0 to byte 7, each `0x` and two digits, a comma and a space
between. Digit case and prefixes are the spec's D20. -/
def Obligations.HexStringsListNibbles : Prop :=
  (List.range 16).map hexDigit =
    ['0', '1', '2', '3', '4', '5', '6', '7', '8', '9', 'a', 'b', 'c', 'd', 'e', 'f'] ∧
  ∀ d : Word, (bigEndianHex d).length = 16 ∧
    (∀ k, k < 16 → (bigEndianHex d)[k]? = some (hexDigit (d.extractLsb' (60 - 4 * k) 4).toNat)) ∧
    littleEndianHex d = bigEndianHex (bswap64 d) ∧
    littleEndianHex d = twoDigits d 0 ++ twoDigits d 1 ++ twoDigits d 2 ++ twoDigits d 3 ++
      twoDigits d 4 ++ twoDigits d 5 ++ twoDigits d 6 ++ twoDigits d 7 ∧
    byteLiteral d = ['d', 'b', ' ', '0', 'x'] ++ twoDigits d 0 ++ [',', ' ', '0', 'x'] ++ twoDigits d 1 ++
      [',', ' ', '0', 'x'] ++ twoDigits d 2 ++ [',', ' ', '0', 'x'] ++ twoDigits d 3 ++
      [',', ' ', '0', 'x'] ++ twoDigits d 4 ++ [',', ' ', '0', 'x'] ++ twoDigits d 5 ++
      [',', ' ', '0', 'x'] ++ twoDigits d 6 ++ [',', ' ', '0', 'x'] ++ twoDigits d 7

/-- R100: the views are functions of the result and lose nothing: equal hexadecimal strings, or equal byte literals, mean
equal results. -/
def Obligations.ViewsDetermineTheDescriptor : Prop :=
  ∀ d d' : Word, (bigEndianBits d = bigEndianBits d' → d = d') ∧ (bigEndianHex d = bigEndianHex d' → d = d') ∧
    (littleEndianHex d = littleEndianHex d' → d = d') ∧ (byteLiteral d = byteLiteral d' → d = d')

/-- R55, R56: each of the eight lines is a valid request that selects the line's operation. That an ENCODE or RANDGEN
line whose fill is 0x000 (the default) or 0x1FF selects the pseudo-operation is the model's choice, log entry 5. -/
def Obligations.LinesSelectTheirOperation : Prop :=
  (∀ o : EncodeLine, (Line.encodePm o).request.instr = .encodePm ∧ (Line.encodeGen o).request.instr = .encodeGen ∧
    (o.fill ≠ 0x000#9 → o.fill ≠ 0x1FF#9 → (Line.encode o).request.instr = .encode o.fill) ∧
    (o.fill = 0x000#9 → (Line.encode o).request.instr = .encodePm) ∧
    (o.fill = 0x1FF#9 → (Line.encode o).request.instr = .encodeGen)) ∧
  (∀ (d : Word) (len : LenTag), (Line.decode d len).request.instr = .decode ∧ (Line.bswap d len).request.instr = .bswap) ∧
  (∀ (g : Option Bool) (fill : FillSel) (rnd : Draw),
    (Line.randgenPm g rnd).request.instr = .randgenPm ∧ (Line.randgenGen g rnd).request.instr = .randgenGen ∧
    (fill ≠ 0x000#9 → fill ≠ 0x1FF#9 → (Line.randgen g fill rnd).request.instr = .randgen fill) ∧
    (fill = 0x000#9 → (Line.randgen g fill rnd).request.instr = .randgenPm) ∧
    (fill = 0x1FF#9 → (Line.randgen g fill rnd).request.instr = .randgenGen)) ∧
  ∀ l : Line, l.request.valid = true
end

