-- ==== Sys2Proof/Laws/Bits.lean ====
section
/-! SUPPORT. The bits of the byte reversal and of an assembled descriptor, one spec lemma each, and the two directions
of insertion and extraction. -/

namespace Sys2Proof.Machine

/-- Bit `i` of a reversed value is the same bit of the opposite byte (42_bswap.md R84). -/
theorem bswap64_getLsbD (v : Word) (i : Nat) (h : i < 64) :
    (bswap64 v).getLsbD i = v.getLsbD (8 * (7 - i / 8) + i % 8) := by
  simp only [bswap64, byteOf, BitVec.getLsbD_append, BitVec.getLsbD_extractLsb']
  interval_cases i <;> simp

/-- The bits of an assembled descriptor, piece by piece (30_encoding.md R37). -/
theorem DescFields.assemble_getLsbD (f : DescFields) (i : Nat) :
    f.assemble.getLsbD i =
      (if i < 16 then f.limit.getLsbD i else if i < 40 then f.base.getLsbD (i - 16)
       else if i = 40 then f.accessed else if i = 41 then f.accessibility else if i = 42 then f.subtype
       else if i = 43 then f.type else if i = 44 then f.s else if i < 47 then f.dpl.getLsbD (i - 45)
       else if i = 47 then f.p else if i < 52 then f.limit.getLsbD (i - 32) else if i = 52 then f.avl
       else if i = 53 then f.l else if i = 54 then f.d else if i = 55 then f.g
       else if i < 64 then f.base.getLsbD (i - 32) else false) := by
  rcases Nat.lt_or_ge i 64 with h | h
  · simp only [DescFields.assemble, DescFields.flags, DescFields.access, bit, BitVec.getLsbD_append,
      BitVec.getLsbD_extractLsb', BitVec.getLsbD_ofBool]
    interval_cases i <;> simp
  · rw [BitVec.getLsbD_of_ge _ _ h]
    simp only [show ¬ i < 16 by omega, show ¬ i < 40 by omega, show ¬ i = 40 by omega, show ¬ i = 41 by omega,
      show ¬ i = 42 by omega, show ¬ i = 43 by omega, show ¬ i = 44 by omega, show ¬ i < 47 by omega,
      show ¬ i = 47 by omega, show ¬ i < 52 by omega, show ¬ i = 52 by omega, show ¬ i = 53 by omega,
      show ¬ i = 54 by omega, show ¬ i = 55 by omega, show ¬ i < 64 by omega, if_false]

/-- Extraction is the inverse of insertion (41_decode.md R75). -/
theorem DescFields.extract_assemble (f : DescFields) : DescFields.extract f.assemble = f := by
  obtain ⟨base, limit, g, d, l, avl, p, dpl, s, type, subtype, accessibility, accessed⟩ := f
  simp only [DescFields.extract, DescFields.assemble_getLsbD, DescFields.mk.injEq]
  refine ⟨?_, ?_, by simp, by simp, by simp, by simp, by simp, ?_, by simp, by simp, by simp, by simp, by simp⟩
  · apply BitVec.eq_of_getLsbD_eq
    intro i h
    simp only [BitVec.getLsbD_append, BitVec.getLsbD_extractLsb', DescFields.assemble_getLsbD]
    interval_cases i <;> simp
  · apply BitVec.eq_of_getLsbD_eq
    intro i h
    simp only [BitVec.getLsbD_append, BitVec.getLsbD_extractLsb', DescFields.assemble_getLsbD]
    interval_cases i <;> simp
  · apply BitVec.eq_of_getLsbD_eq
    intro i h
    simp only [BitVec.getLsbD_extractLsb', DescFields.assemble_getLsbD]
    interval_cases i <;> simp

/-- Insertion is the inverse of extraction: every one of the 64 bits is assigned (30_encoding.md R37). -/
theorem DescFields.assemble_extract (w : Word) : (DescFields.extract w).assemble = w := by
  apply BitVec.eq_of_getLsbD_eq
  intro i h
  rw [DescFields.assemble_getLsbD]
  simp only [DescFields.extract, BitVec.getLsbD_append, BitVec.getLsbD_extractLsb']
  interval_cases i <;> simp

end Sys2Proof.Machine
end

