-- ==== Sys2Proof/Laws/Operands.lean ====
section
/-! SUPPORT. What each shared operation over operands can do, said once. -/

namespace Sys2Proof.Machine

/-- The decision table over all eight inputs (40_encode.md R63). -/
theorem classify_eq (r x w : Bool) :
    classify r x w =
      match r, x, w with
      | false, false, false => .error .noAttributes
      | false, false, true => .ok { type := false, accessibility := true }
      | false, true, false => .ok { type := true, accessibility := false }
      | false, true, true => .error .invalidAttributeCombination
      | true, false, false => .ok { type := true, accessibility := true }
      | true, false, true => .ok { type := false, accessibility := true }
      | true, true, false => .ok { type := true, accessibility := true }
      | true, true, true => .error .invalidAttributeCombination := by
  cases r <;> cases x <;> cases w <;> rfl

/-- A class is one of three: read-only data is never built (R63 b). -/
theorem classify_ok_cases {r x w : Bool} {c : SegClass} (h : classify r x w = .ok c) :
    w = !c.type ∧ (c.type = true → (r || x) = true ∧ c.accessibility = r) ∧
      (c.type = false → x = false ∧ c.accessibility = true) := by
  rw [classify_eq] at h
  cases r <;> cases x <;> cases w <;> simp_all <;> subst h <;> simp

/-- The three triples that fail, and how (R63). -/
theorem classify_error_cases {r x w : Bool} {k : ErrorKind} (h : classify r x w = .error k) :
    (x = true ∧ w = true ∧ k = .invalidAttributeCombination) ∨
      (r = false ∧ x = false ∧ w = false ∧ k = .noAttributes) := by
  rw [classify_eq] at h
  cases r <;> cases x <;> cases w <;> simp_all

/-- The width check of ENCODE (R60). -/
theorem Request.widthsOk_iff (req : Request) : req.widthsOk = true ↔ req.baseLen = 32#8 ∧ req.limitLen = 20#8 := by
  simp [Request.widthsOk]

/-- The length check of DECODE and BSWAP (41_decode.md R74). -/
theorem Request.descOk_iff (req : Request) : req.descOk = true ↔ req.descLen = 64#8 := by
  simp [Request.descOk]

/-- ENCODE of a wrong width (R60). -/
theorem encodeAnswer_of_not_widthsOk {fill : FillSel} {req : Request} (h : req.widthsOk = false) :
    encodeAnswer fill req = .error .invalidFieldWidth := by
  simp [encodeAnswer, h]

/-- ENCODE of a triple that the table rejects. -/
theorem encodeAnswer_of_error {fill : FillSel} {req : Request} {k : ErrorKind} (hw : req.widthsOk = true)
    (h : classify req.readable req.executable req.writable = .error k) : encodeAnswer fill req = .error k := by
  simp [encodeAnswer, encodeClassified, hw, h]

/-- ENCODE of a triple that the table accepts. -/
theorem encodeAnswer_of_ok {fill : FillSel} {req : Request} {c : SegClass} (hw : req.widthsOk = true)
    (h : classify req.readable req.executable req.writable = .ok c) :
    encodeAnswer fill req = .word (encodeFields fill req c).assemble (advisoryBit Config.advisoryEn c.type) := by
  simp [encodeAnswer, encodeClassified, hw, h]

/-- All that ENCODE can answer. -/
theorem encodeAnswer_cases (fill : FillSel) (req : Request) :
    (req.widthsOk = false ∧ encodeAnswer fill req = .error .invalidFieldWidth) ∨
    (req.widthsOk = true ∧ ∃ k, classify req.readable req.executable req.writable = .error k ∧
      encodeAnswer fill req = .error k) ∨
    (req.widthsOk = true ∧ ∃ c, classify req.readable req.executable req.writable = .ok c ∧
      encodeAnswer fill req =
        .word (encodeFields fill req c).assemble (advisoryBit Config.advisoryEn c.type)) := by
  cases hw : req.widthsOk with
  | false => exact .inl ⟨rfl, encodeAnswer_of_not_widthsOk hw⟩
  | true =>
    cases hc : classify req.readable req.executable req.writable with
    | error k => exact .inr (.inl ⟨rfl, k, rfl, encodeAnswer_of_error hw hc⟩)
    | ok c => exact .inr (.inr ⟨rfl, c, rfl, encodeAnswer_of_ok hw hc⟩)

/-- The drawn operands always have the accepted widths (43_randgen.md R90). -/
theorem Request.drawn_widthsOk (req : Request) : req.drawn.widthsOk = true := rfl

@[simp] theorem Request.drawn_readable (req : Request) : req.drawn.readable = req.rnd.getLsbD 12 := rfl
@[simp] theorem Request.drawn_executable (req : Request) : req.drawn.executable = req.rnd.getLsbD 11 := rfl
@[simp] theorem Request.drawn_writable (req : Request) : req.drawn.writable = req.rnd.getLsbD 10 := rfl
@[simp] theorem Request.drawn_rnd (req : Request) : req.drawn.rnd = req.rnd := rfl
@[simp] theorem Request.drawn_gFixed (req : Request) : req.drawn.gFixed = req.gFixed := rfl

/-- A multiplexer whose select is 0 gives the fixed value (R64). -/
theorem fillBit_of_not_selected {fill : FillSel} {sel : Nat} (h : fill.getLsbD sel = false) (rnd : Draw) (rb : Nat)
    (fixed : Bool) : fillBit fill rnd sel rb fixed = fixed := by simp [fillBit, h]

/-- A multiplexer whose select is 1 gives its random bit (R65). -/
theorem fillBit_of_selected {fill : FillSel} {sel : Nat} (h : fill.getLsbD sel = true) (rnd : Draw) (rb : Nat)
    (fixed : Bool) : fillBit fill rnd sel rb fixed = rnd.getLsbD rb := by simp [fillBit, h]

@[simp] theorem Answer.drive_valid (a : Answer) : a.drive.valid = true := by cases a <;> rfl
@[simp] theorem Answer.drive_word_status (w : Word) (b : Bool) : (Answer.word w b).drive.status = 0#3 := rfl
@[simp] theorem Answer.drive_word_result (w : Word) (b : Bool) : (Answer.word w b).drive.result = w := rfl
@[simp] theorem Answer.drive_word_resultLe (w : Word) (b : Bool) : (Answer.word w b).drive.resultLe = bswap64 w := rfl
@[simp] theorem Answer.drive_word_advisory (w : Word) (b : Bool) : (Answer.word w b).drive.advisory = b := rfl
@[simp] theorem Answer.drive_fields_status (f : FieldRecord) : (Answer.fields f).drive.status = 0#3 := rfl
@[simp] theorem Answer.drive_fields_result (f : FieldRecord) : (Answer.fields f).drive.result = 0#64 := rfl
@[simp] theorem Answer.drive_fields_advisory (f : FieldRecord) : (Answer.fields f).drive.advisory = false := rfl
@[simp] theorem Answer.drive_fields_raw (f : FieldRecord) : (Answer.fields f).drive.raw = f.raw := rfl
@[simp] theorem Answer.drive_error_status (k : ErrorKind) : (Answer.error k).drive.status = k.code := rfl
@[simp] theorem Answer.drive_error_result (k : ErrorKind) : (Answer.error k).drive.result = 0#64 := rfl
@[simp] theorem Answer.drive_error_advisory (k : ErrorKind) : (Answer.error k).drive.advisory = false := rfl

/-- No error kind has the success code (60_exceptions.md R112). -/
theorem ErrorKind.code_ne_zero (k : ErrorKind) : k.code ≠ 0#3 := by cases k <;> decide

/-- The code names its kind. -/
theorem ErrorKind.ofCode_code (k : ErrorKind) : ErrorKind.ofCode k.code = some k := by cases k <;> rfl

theorem SubtypeLabel.ofCode_code (l : SubtypeLabel) : SubtypeLabel.ofCode l.code = some l := by cases l <;> rfl

theorem PermLabel.ofCode_code (l : PermLabel) : PermLabel.ofCode l.code = some l := by cases l <;> rfl

/-- A permission label is never the padding 0 (30_encoding.md R46). -/
theorem PermLabel.code_ne_zero (l : PermLabel) : l.code ≠ 0#3 := by cases l <;> decide

end Sys2Proof.Machine
end

