-- ==== Sys2Proof/Laws/PerInstr.lean ====
section
/-! SUPPORT. Per operation: the selector that the encoder writes lies in the operation's own row of the opcode table,
`sel & mask = match` (30_encoding.md R57). -/

namespace Sys2Proof.Laws.OpcodeRow

/-- A well-formed operation's selector lies in its table row. -/
def Statement (i : Instr) : Prop := i.wf = true → encode i &&& i.row.2 = i.row.1

/-- The row of a plain fill: the mask keeps `op` alone. -/
theorem row_of_op (op : OpCode) (fill : FillSel) : (op ++ fill) &&& 0xE00#12 = op ++ 0#9 := by
  apply BitVec.eq_of_getLsbD_eq
  intro i h
  rw [BitVec.getLsbD_and, BitVec.getLsbD_append, BitVec.getLsbD_append]
  rcases Nat.lt_or_ge i 9 with h9 | h9
  · simp only [h9, if_true]; interval_cases i <;> simp
  · simp only [Nat.not_lt.mpr h9, if_false]; interval_cases i <;> simp

theorem encode (fill : FillSel) : Statement (.encode fill) := fun _ => row_of_op 0b000#3 fill
theorem decode : Statement .decode := fun _ => rfl
theorem bswap : Statement .bswap := fun _ => rfl
theorem randgen (fill : FillSel) : Statement (.randgen fill) := fun _ => row_of_op 0b011#3 fill
theorem encodePm : Statement .encodePm := fun _ => rfl
theorem encodeGen : Statement .encodeGen := fun _ => rfl
theorem randgenPm : Statement .randgenPm := fun _ => rfl
theorem randgenGen : Statement .randgenGen := fun _ => rfl
theorem reserved (op : OpCode) : Statement (.reserved op) := by
  unfold Statement
  revert op
  decide

end Sys2Proof.Laws.OpcodeRow
end

