-- ==== Sys2Proof/Laws/State.lean ====
section
/-! SUPPORT. One lemma per field per update of the state, and what a step does said once. -/

namespace Sys2Proof.Machine

@[simp] theorem State.drive_requests (s : State) (r : Response) : (s.drive r).requests = s.requests := rfl
@[simp] theorem State.drive_resp (s : State) (r : Response) : (s.drive r).resp = r := rfl
@[simp] theorem State.drive_req (s : State) (r : Response) : (s.drive r).req = s.req := rfl
@[simp] theorem State.drive_drive (s : State) (r r' : Response) : (s.drive r).drive r' = s.drive r' := rfl
@[simp] theorem State.advance_requests (s : State) : s.advance.requests = s.requests.tail := rfl
@[simp] theorem State.advance_resp (s : State) : s.advance.resp = s.resp := rfl
@[simp] theorem State.driveIdle_requests (s : State) : s.driveIdle.requests = s.requests := rfl
@[simp] theorem State.driveIdle_resp (s : State) : s.driveIdle.resp = Response.idle := rfl
@[simp] theorem State.req_nil (r : Response) : ({ requests := [], resp := r } : State).req = Request.idle := rfl
@[simp] theorem State.req_cons (req : Request) (rest : List Request) (r : Response) :
    ({ requests := req :: rest, resp := r } : State).req = req := rfl

/-- An answer is always a next state, in which the response alone has changed. -/
theorem State.answer_eq (s : State) (a : Answer) : s.answer a = .next { s with resp := a.drive } := rfl

/-- A failure is a next state too. -/
theorem State.fail_eq (s : State) (k : ErrorKind) :
    s.fail k = .next { s with resp := { Response.idle with valid := true, status := k.code } } := rfl

/-- The answer of each operation: a function of the request presented and of nothing else. -/
def answerOf (i : Instr) (req : Request) : Answer :=
  match i with
  | .encode fill => encodeAnswer fill req
  | .decode => if req.descOk then .fields (fieldRecord req.desc) else .error .invalidLength
  | .bswap => if req.descOk then .word (bswap64 req.desc) false else .error .invalidLength
  | .randgen fill => encodeAnswer fill req.drawn
  | .encodePm => encodeAnswer 0x000#9 req
  | .encodeGen => encodeAnswer 0x1FF#9 req
  | .randgenPm => encodeAnswer 0x000#9 req.drawn
  | .randgenGen => encodeAnswer 0x1FF#9 req.drawn
  | .reserved _ => .error .invalidOperation

/-- All that an operation can do: drive the response of its answer. -/
theorem exec_eq_answer (i : Instr) (s : State) : exec i s = s.answer (answerOf i s.req) := by
  cases i <;> simp only [exec, answerOf] <;> try rfl
  · simp only [execDecode]; split <;> rfl
  · simp only [execBswap]; split <;> rfl

/-- The response that a step drives. -/
def driven (req : Request) : Response :=
  if req.valid then (answerOf req.instr req).drive else Response.idle

/-- All that a step can do: drive the response of the request presented, and go on to the next. -/
theorem step_eq (s : State) : step s = .next { requests := s.requests.tail, resp := driven s.req } := by
  unfold step driven
  split
  · rw [exec_eq_answer]; rfl
  · rfl

/-! What the request presented is, by its `op` (30_encoding.md R47). -/

theorem Request.answerOf_instr_of_op0 {req : Request} (h : req.op = 0#3) :
    answerOf req.instr req = encodeAnswer req.fillSel req := by
  unfold Request.instr decodeFields
  rw [h]
  show answerOf (encodeRow req.fillSel) req = _
  unfold encodeRow
  split
  · rename_i hf; rw [hf]; rfl
  · split
    · rename_i hf; rw [hf]; rfl
    · rfl

theorem Request.instr_of_op1 {req : Request} (h : req.op = 1#3) : req.instr = .decode := by
  unfold Request.instr decodeFields; rw [h]; rfl

theorem Request.instr_of_op2 {req : Request} (h : req.op = 2#3) : req.instr = .bswap := by
  unfold Request.instr decodeFields; rw [h]; rfl

theorem Request.answerOf_instr_of_op3 {req : Request} (h : req.op = 3#3) :
    answerOf req.instr req = encodeAnswer req.fillSel req.drawn := by
  unfold Request.instr decodeFields
  rw [h]
  show answerOf (randgenRow req.fillSel) req = _
  unfold randgenRow
  split
  · rename_i hf; rw [hf]; rfl
  · split
    · rename_i hf; rw [hf]; rfl
    · rfl

theorem Request.instr_of_reserved {req : Request} (h : 4 ≤ req.op.toNat) : req.instr = .reserved req.op := by
  unfold Request.instr decodeFields
  split <;> first | omega | rfl

theorem OpCode.cases (op : OpCode) : op = 0#3 ∨ op = 1#3 ∨ op = 2#3 ∨ op = 3#3 ∨ 4 ≤ op.toNat := by
  revert op; decide

/-- One step of a run. -/
theorem run_succ (k : Nat) (s : State) :
    Host.Core.run Sys2Proof.core (k + 1) s =
      Host.Core.run Sys2Proof.core k ({ requests := s.requests.tail, resp := driven s.req } : State) := by
  have h : Sys2Proof.core.step s = .next ({ requests := s.requests.tail, resp := driven s.req } : State) := step_eq s
  simp only [Host.Core.run, h]

end Sys2Proof.Machine
end

