-- ==== Sys2Proof/Tests/Slice0.lean ====
section
/-! SUPPORT. Tests. Every expected value is taken from spec/95_test_vectors.md or from the worked number of the rule
named beside it; selector words are written out from 30_encoding.md R47, R49 and R57. -/

namespace Sys2Proof.Tests
open Sys2Proof Sys2Proof.Machine Sys2Proof.Claims

/-- The machine with one request presented. -/
def presenting (req : Request) : State := { State.reset with requests := [req] }

/-- The answer that the host reads after one step on a line. -/
def hostReads (line : Line) : Option Answer :=
  match step (presenting line.request) with
  | .next t => t.resp.read
  | .fault _ => none
  | .refused _ => none

/-! ## Well-formedness: one ill-formed term for each check -/

theorem test_wf_refuses_encode_fill_pm : (Instr.encode 0x000).wf = false := by decide
theorem test_wf_refuses_encode_fill_gen : (Instr.encode 0x1FF).wf = false := by decide
theorem test_wf_refuses_randgen_fill_pm : (Instr.randgen 0x000).wf = false := by decide
theorem test_wf_refuses_randgen_fill_gen : (Instr.randgen 0x1FF).wf = false := by decide
theorem test_wf_refuses_reserved_of_bswap_code : (Instr.reserved 0b010).wf = false := by decide

/-! ## Decoding: each constructor by a selector written out bit by bit, `op` then `fill_sel` -/

theorem test_decode_encode_flags_random : decodeTableWord 16 0b000_111100000 = some (.encode 0x1E0) := by decide
theorem test_decode_encode_dpl_random : decodeTableWord 16 0b000_000001000 = some (.encode 0x008) := by decide
theorem test_decode_encode_pm : decodeTableWord 16 0b000_000000000 = some .encodePm := by decide
theorem test_decode_encode_gen : decodeTableWord 16 0b000_111111111 = some .encodeGen := by decide
theorem test_decode_decode : decodeTableWord 16 0b001_000000000 = some .decode := by decide
theorem test_decode_decode_any_fill : decodeTableWord 16 0b001_101010101 = some .decode := by decide
theorem test_decode_bswap : decodeTableWord 16 0b010_000000000 = some .bswap := by decide
theorem test_decode_randgen : decodeTableWord 16 0b011_100000000 = some (.randgen 0x100) := by decide
theorem test_decode_randgen_pm : decodeTableWord 16 0b011_000000000 = some .randgenPm := by decide
theorem test_decode_randgen_gen : decodeTableWord 16 0b011_111111111 = some .randgenGen := by decide
theorem test_decode_reserved_4 : decodeTableWord 16 0b100_000000000 = some (.reserved 4) := by decide
theorem test_decode_reserved_7 : decodeTableWord 16 0b111_000000000 = some (.reserved 7) := by decide
theorem test_decode_rejects_bit_12 : decodeWord 0b1_000_000000000 = .error .outsideSelector := by rfl
theorem test_encode_writes_fill : encode (.encode 0x1E0) = 0b000_111100000 := by decide

/-- The word placed by `withFetchWord` is what the next step runs: a reserved code from reset. -/
theorem test_fetch_reserved :
    step (State.reset.withFetchWord 16 0b101_000000000)
      = .next { requests := [], resp := { Response.idle with valid := true, status := 5 } } := by rfl

/-! ## One step of each operation -/

/-- V7 E22: generic bits G1 D0 L1 AVL0 P1 DPL0 S1 Sub0 Acd1, under fill 0x1FF by ENCODE.GEN. -/
theorem test_encode_gen_e22 :
    hostReads (.encodeGen { base := 0xDEADBEEF, limit := 0x54321, writable := true, rnd := 0x2A5 })
      = some (.word 0xDEA593ADBEEF4321 false) := by decide

/-- V9 X12: the generic variant rejects the same triples. -/
theorem test_encode_gen_x12 :
    hostReads (.encodeGen { base := 0x00007E00, limit := 0x00200, executable := true, writable := true, rnd := 0x3FF })
      = some (.error .invalidAttributeCombination) := by decide

/-- V7 E32: DPL from `rnd[4:3]` = 10, `rnd[4]` the high bit. -/
theorem test_encode_e32 :
    hostReads (.encode
      { base := 0x00007E00, limit := 0x00200, readable := true, executable := true
        gran := some false, fill := 0x008, rnd := 0x010 }) = some (.word 0x0040DA007E000200 true) := by decide

/-- V9 X7: the width is checked before the attributes. -/
theorem test_encode_x7 :
    hostReads (.encode { base := 0x00007E00, limit := 0x00200, limitLen := 21, executable := true, writable := true })
      = some (.error .invalidFieldWidth) := by decide

/-- V6 E12: every piece of base and limit distinct. -/
theorem test_encode_pm_e12 :
    hostReads (.encodePm { base := 0x12345678, limit := 0xABCDE, readable := true, writable := true, gran := some true })
      = some (.word 0x12CA92345678BCDE false) := by decide

/-- V5: readable alone is a code segment; G absent is 1. V6 E7 with attr R (R63 a). -/
theorem test_encode_pm_readable_alone :
    hostReads (.encodePm { base := 0x00007E00, limit := 0x00200, readable := true })
      = some (.word 0x00C09A007E000200 true) := by decide

/-- V10 D14. -/
theorem test_decode_d14 :
    hostReads (.decode 0xFEDCBA9876543210 64)
      = some (.fields
          { raw := { base := 0xFE987654, limit := 0xC3210, g := true, d := true, l := false, avl := true, p := true,
                     dpl := 1, s := true, type := true, subtype := false, accessibility := true, accessed := false }
            code := true, subtype := .notConforming, perm := .xr }) := by decide

/-- V11 X17. -/
theorem test_decode_x17 : hostReads (.decode 0xFFFFFFFFFFFFFFFF 65) = some (.error .invalidLength) := by decide

/-- V12 B1, both response words. -/
theorem test_bswap_b1 :
    (respond (Line.bswap 0x0123456789ABCDEF 64).request)
      = { Response.idle with valid := true, result := 0xEFCDAB8967452301, resultLe := 0x0123456789ABCDEF } := by decide

/-- V11 X19. -/
theorem test_bswap_x19 : hostReads (.bswap 0x0123456789ABCDEF 32) = some (.error .invalidLength) := by decide

/-- V13 G5 by its fill, less the Accessed select: 0xF7 with Accessed 0 is 0xF6 (R49, R95). -/
theorem test_randgen_fill_1fe :
    hostReads (.randgen none 0x1FE 0x195FD757C2468A7FF) = some (.word 0xCAF1F6FEBABE2345 false) := by decide

/-- V13 G6, any fill. -/
theorem test_randgen_g6 :
    hostReads (.randgen none 0x0F0 0x195FD757C2468AD55) = some (.error .invalidAttributeCombination) := by decide

/-- V13 G2: scenario 1 by a draw. -/
theorem test_randgen_pm_g2 :
    hostReads (.randgenPm (some false) 0x00000FC0000401800) = some (.word 0x00409A007E000200 true) := by decide

/-- V13 G7. -/
theorem test_randgen_pm_g7 : hostReads (.randgenPm none 0) = some (.error .noAttributes) := by decide

/-- V13 G10. -/
theorem test_randgen_gen_g10 :
    hostReads (.randgenGen none 0x10000000300002AAA) = some (.word 0x80A8AC0000010001 true) := by decide

/-- V14 X24: no request, whatever stands on the other fields. -/
theorem test_idle_x24 :
    step { requests := [{ (Line.bswap 0xFF 64).request with valid := false }], resp := { Response.idle with status := 4 } }
      = .next { requests := [], resp := Response.idle } := by rfl

/-! ## Views and lines -/

/-- V15, the last row. -/
theorem test_views_v15_hex :
    bigEndianHex 0x12CA92345678BCDE = "12ca92345678bcde".toList
      ∧ littleEndianHex 0x12CA92345678BCDE = "debc78563492ca12".toList := by decide

theorem test_views_v15_bits :
    bigEndianBits 0x12CA92345678BCDE
      = "0001001011001010100100100011010001010110011110001011110011011110".toList := by decide

theorem test_views_v15_literal :
    byteLiteral 0x12CA92345678BCDE = "db 0xde, 0xbc, 0x78, 0x56, 0x34, 0x92, 0xca, 0x12".toList := by decide

/-- V11 X14 and V9 X7, as request lines. -/
theorem test_lines_requests :
    (Line.decode 0x00409A007E000200 32).chars = "DECODE desc=0x00409A007E000200:32".toList
      ∧ (Line.encode { base := 0x00007E00, limit := 0x00200, limitLen := 21, executable := true, writable := true }).chars
        = "ENCODE base=0x00007E00 limit=0x00200:21 attr=XW".toList := by decide

/-- V1 and V3, as response lines. -/
theorem test_lines_responses :
    (Answer.word 0x00409A007E000200 true).chars = "OK result=0x00409A007E000200 le=0x0002007E009A4000 adv=1".toList
      ∧ (Answer.error .invalidAttributeCombination).chars = "ERR InvalidAttributeCombination".toList := by decide

/-! ## Witnesses: for each statement with hypotheses, concrete states and operands that meet them, at the boundaries of
its clauses. The requests are those of spec/95_test_vectors.md. -/

/-- V6 E1: a code segment. -/
def e1 : Request :=
  (Line.encode { base := 0x00007E00, limit := 0x00200, readable := true, executable := true, gran := some false }).request

/-- V6 E2: a data segment. -/
def e2 : Request :=
  (Line.encode { base := 0x00007E00, limit := 0x00200, writable := true, gran := some false }).request

/-- V13 G1: a draw that is accepted. -/
def g1 : Request := (Line.randgenPm none 0x00000FC0000401800).request

/-- V10 D1. -/
def d1 : Request := (Line.decode 0x00409A007E000200 64).request

theorem witness_DecodeOfEncodeIsIdentity :
    (Instr.encode 0x1FE).wf = true ∧ (Instr.randgen 0x001).wf = true ∧ Instr.bswap.wf = true
      ∧ (Instr.reserved 4).wf = true ∧ (Instr.reserved 7).wf = true := by decide

/-- Both ends of ENCODE's and of RANDGEN's selectors. -/
theorem witness_EverySelectorDecodesInItsRow :
    (0x000 : Selector).extractLsb' 9 3 = 0 ∧ (0x1FF : Selector).extractLsb' 9 3 = 0
      ∧ (0x600 : Selector).extractLsb' 9 3 = 3 ∧ (0x7FF : Selector).extractLsb' 9 3 = 3 := by decide

theorem witness_HexStringsListNibbles : 0 < 16 ∧ 15 < 16 := by decide

theorem witness_NumbersBeyondTheSelectorAreRefused : 4096 ≤ 4096 ∧ decodeWord 4095 = .ok (.reserved 7) :=
  ⟨by decide, rfl⟩

theorem witness_StepRunsTheSelectedOperation :
    (presenting e1).req.valid = true
      ∧ decodeWord ((presenting e1).req.op ++ (presenting e1).req.fillSel).toNat = .ok .encodePm := ⟨rfl, rfl⟩

theorem witness_PlacedWordRunsNext : decodeTableWord 16 0x200 = some .decode := by decide

theorem witness_NoRequestDrivesTheIdleResponse :
    (presenting { e1 with valid := false }).req.valid = false ∧ State.reset.req.valid = false := ⟨rfl, rfl⟩

/-- A state whose response is an error meets the invariant; so does one whose response is DECODE's of D1. -/
theorem witness_StepKeepsTheResponseTable :
    ({ requests := [e1], resp := errorOnly 5 } : State).Inv
      ∧ ({ requests := [], resp := respond d1 } : State).Inv := by
  constructor <;> constructor <;> decide

theorem witness_ResponseIsFunctionOfItsRequest : (presenting e1).req = e1 := rfl

theorem witness_ResponsesComeInOrderAndAlone : 0 < [e1, d1].length ∧ 1 < [e1, d1].length := by decide

theorem witness_MachineReturnsToResetState : [e1, d1].length ≤ 2 := by decide

/-- `op` 0 to 3, and both ends of the reserved codes. -/
theorem witness_StatusNamesTheFirstCause :
    (presenting e1).req.valid = true ∧ (presenting d1).req.valid = true ∧ (presenting g1).req.valid = true
      ∧ (presenting { e1 with op := 4 }).req.valid = true ∧ (presenting { e1 with op := 7 }).req.valid = true :=
  ⟨rfl, rfl, rfl, rfl, rfl⟩

/-- Two requests that both meet `SameReads`, written as one field update each of a common request. -/
abbrev agree (req : Request) (f g : Request → Request) : Prop := SameReads (f req) (g req)

/-- ENCODE with another `desc` and unselected draw; with wrong tags, another base and attributes. -/
theorem witness_UnreadRequestFieldsAreIgnored_encode :
    agree e1 id (fun q => { q with desc := 0xFF, descLen := 3, rnd := 0x3FF })
      ∧ agree e1 (fun q => { q with baseLen := 31 }) (fun q => { q with baseLen := 31, base := 0, writable := true }) := by
  repeat' first | decide | apply And.intro

/-- ENCODE with G random: `gran_present` differs. -/
theorem witness_UnreadRequestFieldsAreIgnored_gran :
    agree e1 (fun q => { q with fillSel := 0x100, rnd := 0x200 })
      (fun q => { q with fillSel := 0x100, rnd := 0x3DF, granPresent := false }) := by
  repeat' first | decide | apply And.intro

/-- DECODE with every ENCODE operand and the draw different; with a wrong tag, another `desc`. -/
theorem witness_UnreadRequestFieldsAreIgnored_decode :
    agree d1 id (fun q => { q with base := 7, fillSel := 0x1FF, rnd := 9 })
      ∧ agree d1 (fun q => { q with descLen := 32 }) (fun q => { q with descLen := 32, desc := 0 }) := by
  repeat' first | decide | apply And.intro

/-- RANDGEN with the ENCODE operands and the unselected draw different; a reserved code with everything different. -/
theorem witness_UnreadRequestFieldsAreIgnored_randgen :
    agree g1 id (fun q => { q with base := 7, baseLen := 1, readable := true, rnd := 0x00000FC0000401BFF })
      ∧ agree e1 (fun q => { q with op := 5 }) (fun _ => { d1 with op := 5 }) := by
  repeat' first | decide | apply And.intro

theorem witness_AdvisoryMarksCodeDescriptors : (presenting e1).req.valid = true := rfl

theorem witness_forms :
    EncodeForm (.encode 0x008) 0x008 ∧ EncodeForm .encodePm 0x000 ∧ EncodeForm .encodeGen 0x1FF
      ∧ RandgenForm (.randgen 0x008) 0x008 ∧ RandgenForm .randgenPm 0x000 ∧ RandgenForm .randgenGen 0x1FF := by
  unfold EncodeForm RandgenForm; decide

/-- Tags one off on either side (V9 X1, X2, X4). -/
theorem witness_EncodeRefusesWrongWidths :
    EncodeForm .encodePm 0x000 ∧ (presenting { e1 with baseLen := 31 }).req.baseLen ≠ 32
      ∧ (presenting { e1 with baseLen := 33 }).req.baseLen ≠ 32
      ∧ (presenting { e1 with limitLen := 21 }).req.limitLen ≠ 20 := by
  unfold EncodeForm; decide

/-- V9 X9, X10, by all three operations. -/
theorem witness_EncodeRefusesWritableCode :
    EncodeForm .encodeGen 0x1FF ∧ (presenting { e1 with writable := true }).req.baseLen = 32
      ∧ (presenting { e1 with writable := true }).req.limitLen = 20
      ∧ (presenting { e1 with writable := true }).req.executable = true
      ∧ (presenting { e1 with writable := true }).req.writable = true := by
  unfold EncodeForm; decide

/-- V9 X11. -/
theorem witness_EncodeRefusesNoAttributes :
    EncodeForm (.encode 0x1E0) 0x1E0 ∧ (presenting { e2 with writable := false }).req.baseLen = 32
      ∧ (presenting { e2 with writable := false }).req.limitLen = 20
      ∧ (presenting { e2 with writable := false }).req.readable = false
      ∧ (presenting { e2 with writable := false }).req.executable = false
      ∧ (presenting { e2 with writable := false }).req.writable = false := by
  unfold EncodeForm; decide

/-- All three classes (V5): for EncodeAssemblesTheDescriptor, EncodePmFixesTheUnconstrainedFields,
EncodeGenTakesTheDrawnFields, ResultBitsDependOnTheirRowOnly and DecodeOfEncodeResultReturnsItsFields. -/
theorem witness_EncodeAssemblesTheDescriptor :
    EncodeOk (presenting e1).req true true ∧ EncodeOk (presenting e2).req false true
      ∧ EncodeOk (presenting { e1 with readable := false }).req true false := by
  unfold EncodeOk Accepts; decide

theorem witness_AttributeTriplesOfOneClassAgree :
    EncodeForm (.encode 0x008) 0x008 ∧ (withAttributes (presenting e1) true false false).req.executable = false := by
  unfold EncodeForm; decide

theorem witness_EncodeIsInjective :
    EncodeOk (presenting e1).req true true ∧ EncodeOk (presenting e2).req false true
      ∧ gFixed (presenting e1).req = gFixed (presenting e2).req ∧ (presenting e1).req.rnd = (presenting e2).req.rnd := by
  unfold EncodeOk Accepts; decide

theorem witness_ReadOnlyDataIsNeverBuilt :
    EncodeForm .encodePm 0x000 ∧ (respond e2).status = 0 ∧ (respond g1).status = 0 := by
  unfold EncodeForm; decide

/-- DecodeExtractsEveryField, DecodeLabelsFollowTypeBits, DecodeLosesNoBit, BswapReversesItsOperand: the accepted tag,
one on either side of it (V11 X16, X17), and all four of Type and Accessibility (V10 D1, D2, D3, D4). -/
theorem witness_DecodeExtractsEveryField :
    (presenting d1).req.descLen = 64 ∧ (presenting { d1 with descLen := 63 }).req.descLen ≠ 64
      ∧ (presenting { d1 with descLen := 65 }).req.descLen ≠ 64
      ∧ (presenting { d1 with desc := 0x004090007E000200 }).req.desc.getLsbD 43 = false
      ∧ (presenting { d1 with desc := 0x004090007E000200 }).req.desc.getLsbD 41 = false
      ∧ (presenting { d1 with desc := 0x004092007E000200 }).req.desc.getLsbD 41 = true
      ∧ (presenting d1).req.desc.getLsbD 43 = true ∧ (presenting d1).req.desc.getLsbD 41 = true
      ∧ (presenting { d1 with desc := 0x0040980000000000 }).req.desc.getLsbD 43 = true
      ∧ (presenting { d1 with desc := 0x0040980000000000 }).req.desc.getLsbD 41 = false := by decide

/-- The DECODE request of an ENCODE result. -/
theorem witness_DecodeOfEncodeResultReturnsItsFields :
    (respond e1).status = 0 ∧ d1.descLen = 64 ∧ d1.desc = (respond e1).result := by decide

theorem witness_ByteReversalKeepsBitsInBytes : 0 < 8 ∧ 7 < 8 := by decide

/-- V12 B9 is a palindrome, B1 is not. -/
theorem witness_ByteReversalFixesPalindromes :
    bswap64 0x1122334444332211 = 0x1122334444332211 ∧ bswap64 0x0123456789ABCDEF ≠ 0x0123456789ABCDEF := by decide

theorem witness_RandgenIsEncodeOfTheDraw :
    RandgenForm .randgenPm 0x000 ∧ (presenting g1.drawn).req =
      { (presenting g1).req with
        baseLen := 32, base := g1.rnd.extractLsb' 33 32, limitLen := 20, limit := g1.rnd.extractLsb' 13 20
        readable := g1.rnd.getLsbD 12, executable := g1.rnd.getLsbD 11, writable := g1.rnd.getLsbD 10 } := by
  unfold RandgenForm; decide

/-- V13 G1 (code, both), G4 (data), G9 (execute only). -/
theorem witness_RandgenAssemblesTheDrawnDescriptor :
    RandgenForm .randgenGen 0x1FF ∧ DrawOk (presenting g1).req true true
      ∧ DrawOk (presenting { g1 with rnd := 0x195FD757C2468A7FF }).req false true
      ∧ DrawOk (presenting { g1 with rnd := 0x10000000300002AAA }).req true false := by
  unfold RandgenForm DrawOk Accepts; decide

/-- V13 G6, G7, G1: each clause. -/
theorem witness_RandgenFailsOnRejectedTriples :
    (0x195FD757C2468AD55 : Draw).getLsbD 11 = true ∧ (0x195FD757C2468AD55 : Draw).getLsbD 10 = true
      ∧ (0 : Draw).getLsbD 12 = false ∧ (0 : Draw).getLsbD 11 = false ∧ (0 : Draw).getLsbD 10 = false
      ∧ g1.rnd.getLsbD 12 = true ∧ g1.rnd.getLsbD 10 = false := by decide

theorem witness_RandgenFailsForThreeOfEightTriples : g1.valid = true ∧ g1.op = 3 := ⟨rfl, rfl⟩

/-- `op` = 4 and `op` = 7 (V14 X21, X23). -/
theorem witness_ReservedCodesAreInvalidOperations :
    (presenting { e1 with op := 4 }).req.valid = true ∧ (presenting { e1 with op := 4 }).req.op.getLsbD 2 = true
      ∧ (presenting { e1 with op := 7 }).req.op.getLsbD 2 = true := by decide

/-- The default fill, its neighbour, and 0x1FF with its neighbour. -/
theorem witness_LinesSelectTheirOperation :
    ({ base := 0x00007E00, limit := 0x00200 } : EncodeLine).fill = 0x000#9
      ∧ ({ base := 0x00007E00, limit := 0x00200, fill := 0x1FF } : EncodeLine).fill = 0x1FF#9
      ∧ (0x001 : FillSel) ≠ 0x000#9 ∧ (0x001 : FillSel) ≠ 0x1FF#9
      ∧ (0x1FE : FillSel) ≠ 0x000#9 ∧ (0x1FE : FillSel) ≠ 0x1FF#9 := by decide

end Sys2Proof.Tests
end

/-! The host's reading of a response (00_scope.md R12, 70_reset_and_hazards.md R130): one reading rule per outcome, each
about any response, and what reading a driven answer gives (O45). -/

namespace Sys2Proof.Machine

/-- The padding 0 of an undriven `lbl_perm` names no letter set (30_encoding.md R46). -/
theorem PermLabel.ofCode_zero : PermLabel.ofCode 0#3 = none := rfl

/-- A status other than 0 is read as the error kind it names, and no other field is read (60_exceptions.md R116). -/
theorem Response.read_of_status_ne_zero {r : Response} (hv : r.valid = true) (hs : r.status ≠ 0#3) :
    r.read = (ErrorKind.ofCode r.status).map .error := by
  simp [Response.read, hv, hs]

/-- A success whose `lbl_perm` names no letter set is read as a 64-bit result. -/
theorem Response.read_of_no_label {r : Response} (hv : r.valid = true) (hs : r.status = 0#3)
    (hp : PermLabel.ofCode r.lblPerm = none) : r.read = some (.word r.result r.advisory) := by
  simp [Response.read, hv, hs, hp]

/-- A success with both labels is read as a field record. -/
theorem Response.read_of_labels {r : Response} {sub : SubtypeLabel} {perm : PermLabel} (hv : r.valid = true)
    (hs : r.status = 0#3) (hsub : SubtypeLabel.ofCode r.lblSubtype = some sub)
    (hperm : PermLabel.ofCode r.lblPerm = some perm) :
    r.read = some (.fields { raw := r.raw, code := r.lblType, subtype := sub, perm := perm }) := by
  simp [Response.read, hv, hs, hsub, hperm]

/-- Reading is the left inverse of driving, outcome by outcome: the padding labels tell a result from a field record,
and the status tells an error from both. -/
@[simp] theorem Answer.read_drive (a : Answer) : a.drive.read = some a := by
  have hv : a.drive.valid = true := a.drive_valid
  cases a with
  | word w b => exact Response.read_of_no_label hv rfl PermLabel.ofCode_zero
  | fields f => exact Response.read_of_labels hv rfl f.subtype.ofCode_code f.perm.ofCode_code
  | error k =>
    rw [Response.read_of_status_ne_zero hv k.code_ne_zero, drive_error_status, k.ofCode_code, Option.map_some]

/-- No two outcomes share a response (R12). -/
theorem Answer.drive_injective : Function.Injective Answer.drive :=
  fun _ _ h => by simpa using congrArg Response.read h

/-- Settles O45: each outcome meets the condition of its own reading rule. -/
theorem hostReadsBackTheOutcome : Obligations.HostReadsBackTheOutcome := Answer.read_drive

end Sys2Proof.Machine

/-! The idle interface, and the response as a function of the request (10_state.md R20, R22, R23;
70_reset_and_hazards.md R127, R128): O8, O12, O14. -/

namespace Sys2Proof.Machine

/-- With no request presented the other request fields are not read (R128). -/
theorem driven_of_not_valid {req : Request} (h : req.valid = false) : driven req = Response.idle := by
  simp [driven, h]

@[simp] theorem driven_idle : driven Request.idle = Response.idle := driven_of_not_valid rfl

/-- With nothing waiting, one step clears whatever response stood there: the machine is as after reset. -/
theorem step_of_no_requests (before : Response) :
    step ({ requests := [], resp := before } : State) = .next State.reset := by
  rw [step_eq, State.req_nil, driven_idle]; rfl

/-- Idle steps, one at least: the first clears the response and the others change nothing. -/
theorem run_of_no_requests (k : Nat) (before : Response) :
    Host.Core.run Sys2Proof.core (k + 1) ({ requests := [], resp := before } : State) = .next State.reset := by
  induction k generalizing before with
  | zero => rw [run_succ, State.req_nil, driven_idle]; rfl
  | succ k ih => rw [run_succ]; exact ih _

/-- Settles O8: the step is the idle step of an empty list of requests. -/
theorem resetIsIdleAndStays : Obligations.ResetIsIdleAndStays :=
  ⟨rfl, rfl, step_of_no_requests Response.idle⟩

/-- Settles O12: the one response is `driven req`, which is computed from the request alone. -/
theorem responseIsFunctionOfItsRequest : Obligations.ResponseIsFunctionOfItsRequest := by
  intro req
  refine ⟨driven req, fun s hreq => ?_⟩
  rw [step_eq, hreq]

/-- Settles O14, by induction on the requests: each step takes one off the list, and the steps left over, at least
one, are idle. -/
theorem machineReturnsToResetState : Obligations.MachineReturnsToResetState := by
  intro reqs
  induction reqs with
  | nil => exact fun before k _ => run_of_no_requests k before
  | cons req rest ih =>
    intro before k hk
    cases k with
    | zero => exact absurd hk (Nat.not_succ_le_zero _)
    | succ k => rw [run_succ]; exact ih _ k (Nat.le_of_succ_le_succ hk)

end Sys2Proof.Machine

/-! A sequence of requests is served one per step, in order, and no response depends on another (20_memory.md R33,
10_state.md R20): O13. -/

namespace Sys2Proof.Machine

/-- A request alone on the interface gets the response that any step presenting it drives. -/
@[simp] theorem respond_eq_driven (req : Request) : respond req = driven req := by
  simp only [respond, step_eq, State.req_cons]

/-- The last of `k + 1` steps serves request `k`: by induction on `k`, since the first of them serves the head of the
list and takes it off. -/
theorem run_succ_eq_driven_getElem (k : Nat) (reqs : List Request) (before : Response) (h : k < reqs.length) :
    Host.Core.run Sys2Proof.core (k + 1) ({ requests := reqs, resp := before } : State) =
      .next ({ requests := reqs.drop (k + 1), resp := driven reqs[k] } : State) := by
  induction k generalizing reqs before with
  | zero =>
    obtain ⟨req, rest, rfl⟩ := List.exists_cons_of_length_pos h
    rw [run_succ]; rfl
  | succ k ih =>
    obtain ⟨req, rest, rfl⟩ := List.exists_cons_of_length_pos (Nat.zero_lt_of_lt h)
    rw [run_succ]; exact ih rest _ (Nat.lt_of_succ_lt_succ h)

/-- Settles O13: request `k` is served by step `k + 1`, with the response it gets on its own. -/
theorem responsesComeInOrderAndAlone : Obligations.ResponsesComeInOrderAndAlone := by
  intro reqs before k h
  rw [respond_eq_driven]
  exact run_succ_eq_driven_getElem k reqs before h

end Sys2Proof.Machine

/-! The decoder and the encoder (30_encoding.md R47, R48, R56, R57): which operation each `op` and `fill_sel` select,
said once, and from it that decoding an encoded operation gives it back and that every selector lies in its operation's row
(O1, O2, O3, O4). -/

namespace Sys2Proof

/-! `op` and `fill_sel` are the two parts of a selector (R57). -/

@[simp] theorem Selector.op_append (op : OpCode) (fill : FillSel) : Selector.op (op ++ fill) = op :=
  BitVec.extractLsb'_append_eq_left

@[simp] theorem Selector.fill_append (op : OpCode) (fill : FillSel) : Selector.fill (op ++ fill) = fill :=
  BitVec.extractLsb'_append_eq_right

theorem Selector.op_append_fill (sel : Selector) : sel.op ++ sel.fill = sel :=
  BitVec.extractLsb'_append_extractLsb'

/-! The rows of ENCODE and RANDGEN: the two pseudo rows, and the base row for every other fill (R56). -/

theorem FillSel.isPlain_iff (fill : FillSel) : fill.isPlain = true ↔ fill ≠ 0x000#9 ∧ fill ≠ 0x1FF#9 := by
  simp [FillSel.isPlain]

theorem FillSel.cases (fill : FillSel) : fill = 0x000#9 ∨ fill = 0x1FF#9 ∨ fill.isPlain = true := by
  rw [FillSel.isPlain_iff]
  tauto

theorem decodeFields_op0_of_isPlain {fill : FillSel} (h : fill.isPlain = true) :
    decodeFields 0#3 fill = .encode fill := by
  obtain ⟨h0, h1⟩ := fill.isPlain_iff.mp h
  change encodeRow fill = _
  rw [encodeRow, if_neg h0, if_neg h1]

theorem decodeFields_op3_of_isPlain {fill : FillSel} (h : fill.isPlain = true) :
    decodeFields 3#3 fill = .randgen fill := by
  obtain ⟨h0, h1⟩ := fill.isPlain_iff.mp h
  change randgenRow fill = _
  rw [randgenRow, if_neg h0, if_neg h1]

/-- The reserved codes are 4 to 7 (R48). -/
theorem OpCode.four_le_toNat_iff (op : OpCode) : 4 ≤ op.toNat ↔ op.getLsbD 2 = true := by
  revert op; decide

theorem decodeFields_of_reserved {op : OpCode} (h : op.getLsbD 2 = true) (fill : FillSel) :
    decodeFields op fill = .reserved op :=
  Machine.Request.instr_of_reserved (req := { Machine.Request.idle with op := op, fillSel := fill })
    (op.four_le_toNat_iff.mpr h)

/-- The nine rows of the opcode table: whatever `op` and `fill_sel` are, they select one of these operations, each under
the condition of its row (R47, R48, R56). -/
theorem decodeFields_cases {motive : OpCode → FillSel → Instr → Prop}
    (encodePm : motive 0#3 0x000#9 .encodePm) (encodeGen : motive 0#3 0x1FF#9 .encodeGen)
    (encode : ∀ fill : FillSel, fill.isPlain = true → motive 0#3 fill (.encode fill))
    (decode : ∀ fill, motive 1#3 fill .decode) (bswap : ∀ fill, motive 2#3 fill .bswap)
    (randgenPm : motive 3#3 0x000#9 .randgenPm) (randgenGen : motive 3#3 0x1FF#9 .randgenGen)
    (randgen : ∀ fill : FillSel, fill.isPlain = true → motive 3#3 fill (.randgen fill))
    (reserved : ∀ (op : OpCode) fill, op.getLsbD 2 = true → motive op fill (.reserved op))
    (op : OpCode) (fill : FillSel) : motive op fill (decodeFields op fill) := by
  rcases Machine.OpCode.cases op with rfl | rfl | rfl | rfl | h4
  · rcases fill.cases with rfl | rfl | h
    · exact encodePm
    · exact encodeGen
    · exact (decodeFields_op0_of_isPlain h).symm ▸ encode fill h
  · exact decode fill
  · exact bswap fill
  · rcases fill.cases with rfl | rfl | h
    · exact randgenPm
    · exact randgenGen
    · exact (decodeFields_op3_of_isPlain h).symm ▸ randgen fill h
  · have h := op.four_le_toNat_iff.mp h4
    exact (decodeFields_of_reserved h fill).symm ▸ reserved op fill h

/-! What the operation of each `op` and `fill_sel` is, row by row. -/

theorem decodeFields_wf (op : OpCode) (fill : FillSel) : (decodeFields op fill).wf = true := by
  induction op, fill using decodeFields_cases with
  | encode fill h | randgen fill h | reserved op fill h => exact h
  | encodePm | encodeGen | decode | bswap | randgenPm | randgenGen => rfl

theorem decodeFields_opCode (op : OpCode) (fill : FillSel) : (decodeFields op fill).opCode = op := by
  induction op, fill using decodeFields_cases <;> rfl

/-- ENCODE and RANDGEN keep `fill_sel`; the others do not read it (R44). -/
theorem decodeFields_fillField (op : OpCode) (fill : FillSel) (h : op = 0#3 ∨ op = 3#3) :
    (decodeFields op fill).fillField = fill := by
  induction op, fill using decodeFields_cases with
  | encodePm | encodeGen | encode | randgenPm | randgenGen | randgen => rfl
  | decode | bswap => simp at h
  | reserved op fill hr => rcases h with rfl | rfl <;> simp at hr

theorem decodeFields_eq_reserved_iff (op : OpCode) (fill : FillSel) :
    (∃ op', decodeFields op fill = .reserved op') ↔ op.getLsbD 2 = true := by
  induction op, fill using decodeFields_cases with
  | reserved op fill h => simp [h]
  | encodePm | encodeGen | encode | decode | bswap | randgenPm | randgenGen | randgen => simp

/-- The mask of the RESERVED row keeps `op[2]` alone. -/
theorem and_reserved_mask (op : OpCode) (fill : FillSel) (h : op.getLsbD 2 = true) :
    (op ++ fill) &&& 0x800#12 = 0x800#12 := by
  have hmask : 0x800#12 = 0xE00#12 &&& 0x800#12 := rfl
  rw [hmask, ← BitVec.and_assoc, Laws.OpcodeRow.row_of_op]
  revert op; decide

/-- `sel & mask = match`: the selector lies in the row of the operation it selects (R57). -/
theorem and_row_of_decodeFields (op : OpCode) (fill : FillSel) :
    (op ++ fill) &&& (decodeFields op fill).row.2 = (decodeFields op fill).row.1 := by
  induction op, fill using decodeFields_cases with
  | encodePm | encodeGen | randgenPm | randgenGen => rfl
  | encode fill | decode fill | bswap fill | randgen fill => exact Laws.OpcodeRow.row_of_op _ fill
  | reserved op fill h => exact and_reserved_mask op fill h

/-- The decoder undoes the encoder on the spellings that it gives back. -/
theorem decodeFields_opCode_fillField {i : Instr} (h : i.wf = true) : decodeFields i.opCode i.fillField = i := by
  cases i with
  | encode fill => exact decodeFields_op0_of_isPlain h
  | randgen fill => exact decodeFields_op3_of_isPlain h
  | reserved op => exact decodeFields_of_reserved h _
  | decode | bswap | encodePm | encodeGen | randgenPm | randgenGen => rfl

/-! The decoder on numbers: 12 bits are a selector, and more are none (R57). -/

theorem decodeWord_eq_ok_iff {w : Nat} {i : Instr} :
    decodeWord w = .ok i ↔ w < 4096 ∧ decodeSel (BitVec.ofNat 12 w) = i := by
  unfold decodeWord
  split <;> simp_all

theorem decodeWord_toNat (sel : Selector) : decodeWord sel.toNat = .ok (decodeFields sel.op sel.fill) := by
  rw [decodeWord_eq_ok_iff, BitVec.ofNat_toNat, BitVec.setWidth_eq]
  exact ⟨sel.isLt, rfl⟩

theorem decodeTableWord_eq_some_iff {nbits w : Nat} {i : Instr} :
    decodeTableWord nbits w = some i ↔ decodeWord (w % 2 ^ nbits) = .ok i := by
  unfold decodeTableWord
  split <;> simp_all

theorem decodeTableWord_of_lt {nbits w : Nat} {i : Instr} (hw : w < 2 ^ nbits) (h : decodeWord w = .ok i) :
    decodeTableWord nbits w = some i := by
  rwa [decodeTableWord_eq_some_iff, Nat.mod_eq_of_lt hw]

theorem decodeWord_encode {i : Instr} (h : i.wf = true) : decodeWord (encode i).toNat = .ok i := by
  rw [decodeWord_toNat, encode, Selector.op_append, Selector.fill_append, decodeFields_opCode_fillField h]

/-- Settles O2: the encoder writes `op` and `fill_sel` beside each other, and a table word of 12 bits or more holds
both. -/
theorem decodeOfEncodeIsIdentity : Obligations.DecodeOfEncodeIsIdentity := by
  intro i h
  have h12 : (encode i).toNat < 2 ^ 12 := (encode i).isLt
  have h16 : (encode i).toNat < 2 ^ 16 := h12.trans (by decide)
  have hd : decodeWord (encode i).toNat = .ok i := decodeWord_encode h
  exact ⟨hd, decodeTableWord_of_lt h12 hd, decodeTableWord_of_lt h16 hd⟩

/-- Settles O3: the selector is its `op` and `fill_sel`, and the nine rows say the rest. -/
theorem everySelectorDecodesInItsRow : Obligations.EverySelectorDecodesInItsRow := by
  intro sel
  refine ⟨decodeFields sel.op sel.fill, decodeWord_toNat sel, decodeFields_wf _ _, ?_, decodeFields_opCode _ _,
    decodeFields_fillField _ _, ?_⟩
  · simpa only [sel.op_append_fill] using and_row_of_decodeFields sel.op sel.fill
  · rw [decodeFields_eq_reserved_iff]
    simp [Selector.op]

/-- Settles O1, word by word. -/
theorem selectorWordsDecode : Obligations.SelectorWordsDecode := by
  unfold Obligations.SelectorWordsDecode
  decide

/-- Settles O4: the decoder looks at the size of the number first. -/
theorem numbersBeyondTheSelectorAreRefused : Obligations.NumbersBeyondTheSelectorAreRefused :=
  fun _ h => if_neg (Nat.not_lt.mpr h)

end Sys2Proof

/-! The response table of 30_encoding.md R46: each kind of answer drives a response that meets it, so every step does
(O9, O10), and what each operation leaves undriven (O18). DECODE and the reserved codes (O34, O44), and the
pseudo-operations (O25). -/

namespace Sys2Proof.Machine
open Sys2Proof.Claims

/-- DECODE, by its length tag alone (41_decode.md R74, R80). -/
theorem answerOf_decode (req : Request) :
    answerOf .decode req = if req.descLen = 64 then .fields (fieldRecord req.desc) else .error .invalidLength := by
  simp [answerOf, Request.descOk]

/-- BSWAP, by its length tag alone (42_bswap.md R85). -/
theorem answerOf_bswap (req : Request) :
    answerOf .bswap req = if req.descLen = 64 then .word (bswap64 req.desc) false else .error .invalidLength := by
  simp [answerOf, Request.descOk]

/-! Each kind of answer drives a response that meets the table. -/

theorem Response.idle_ok : Response.idle.Ok := by
  constructor <;> decide

/-- An error fails closed (60_exceptions.md R116). -/
theorem Answer.drive_error_ok (k : ErrorKind) : (Answer.error k).drive.Ok := by
  cases k <;> constructor <;> decide

/-- A 64-bit result meets the table when its advisory marks code only (40_encode.md R70). -/
theorem Answer.drive_word_ok {w : Word} {b : Bool} (h : b = true → w.getLsbD 43 = true) :
    (Answer.word w b).drive.Ok where
  idle hv := by simp at hv
  status_le := by simp
  failClosed hs := by simp at hs
  littleEndian := rfl
  advisory_code hb := ⟨rfl, h hb⟩
  noFields _ := rfl
  fields hp := absurd rfl hp

/-- The label codes of a Type, Subtype and Accessibility (R52, 41_decode.md R78). -/
theorem subtypeLabel_code (type subtype : Bool) :
    (subtypeLabel type subtype).code = if type then (if subtype then 0b11 else 0b10) else 0b01 := by
  cases type <;> cases subtype <;> rfl

/-- The letters of a Type and Accessibility (R52, 41_decode.md R79). -/
theorem permLabel_code (type acc : Bool) :
    (permLabel type acc).code =
      if type then (if acc then 0b101 else 0b001) else (if acc then 0b110 else 0b100) := by
  cases type <;> cases acc <;> rfl

theorem bswap64_zero : bswap64 0#64 = 0#64 := by decide

/-- The field record of any descriptor has its three labels (41_decode.md R80). -/
theorem Answer.drive_fieldRecord_ok (d : Word) : (Answer.fields (fieldRecord d)).drive.Ok where
  idle hv := by simp at hv
  status_le := by simp
  failClosed hs := by simp at hs
  littleEndian := bswap64_zero.symm
  advisory_code ha := by simp at ha
  noFields hp := absurd hp (PermLabel.code_ne_zero _)
  fields _ := ⟨rfl, rfl, rfl, subtypeLabel_code _ _, permLabel_code _ _⟩

/-- Bit 43 of the descriptor that ENCODE builds is the Type of its class. -/
theorem encodeFields_assemble_type (fill : FillSel) (req : Request) (c : SegClass) :
    (encodeFields fill req c).assemble.getLsbD 43 = c.type := by
  rw [DescFields.assemble_getLsbD]
  rfl

theorem encodeAnswer_drive_ok (fill : FillSel) (req : Request) : (encodeAnswer fill req).drive.Ok := by
  obtain ⟨_, h⟩ | ⟨_, k, _, h⟩ | ⟨_, c, _, h⟩ := encodeAnswer_cases fill req <;> rw [h]
  · exact Answer.drive_error_ok _
  · exact Answer.drive_error_ok k
  · refine Answer.drive_word_ok fun hadv => ?_
    rw [encodeFields_assemble_type]
    exact (Bool.and_eq_true_iff.mp hadv).2

theorem answerOf_drive_ok (i : Instr) (req : Request) : (answerOf i req).drive.Ok := by
  cases i with
  | encode | encodePm | encodeGen => exact encodeAnswer_drive_ok _ req
  | randgen | randgenPm | randgenGen => exact encodeAnswer_drive_ok _ req.drawn
  | decode =>
    rw [answerOf_decode]
    split
    · exact Answer.drive_fieldRecord_ok _
    · exact Answer.drive_error_ok _
  | bswap =>
    rw [answerOf_bswap]
    split
    · exact Answer.drive_word_ok (by simp)
    · exact Answer.drive_error_ok _
  | reserved => exact Answer.drive_error_ok _

theorem driven_ok (req : Request) : (driven req).Ok := by
  unfold driven
  split
  · exact answerOf_drive_ok _ _
  · exact Response.idle_ok

/-- Settles O9: after reset the response is the idle one. -/
theorem resetMeetsTheResponseTable : Obligations.ResetMeetsTheResponseTable := Response.idle_ok

/-- Settles O10: no step reads the earlier response, so every driven response meets the table on its own. -/
theorem stepKeepsTheResponseTable : Obligations.StepKeepsTheResponseTable :=
  fun s _ => ⟨_, step_eq s, driven_ok s.req⟩

/-! The frame of each operation. -/

theorem answerOf_of_encodeForm {i : Instr} {fill : FillSel} (h : EncodeForm i fill) (req : Request) :
    answerOf i req = encodeAnswer fill req := by
  obtain rfl | ⟨rfl, rfl⟩ | ⟨rfl, rfl⟩ := h <;> rfl

theorem answerOf_of_randgenForm {i : Instr} {fill : FillSel} (h : RandgenForm i fill) (req : Request) :
    answerOf i req = encodeAnswer fill req.drawn := by
  obtain rfl | ⟨rfl, rfl⟩ | ⟨rfl, rfl⟩ := h <;> rfl

/-- ENCODE drives no decode field. -/
theorem encodeAnswer_drive_frame (fill : FillSel) (req : Request) :
    (encodeAnswer fill req).drive = { Response.idle with
      valid := true
      status := (encodeAnswer fill req).drive.status
      result := (encodeAnswer fill req).drive.result
      resultLe := (encodeAnswer fill req).drive.resultLe
      advisory := (encodeAnswer fill req).drive.advisory } := by
  obtain ⟨_, h⟩ | ⟨_, k, _, h⟩ | ⟨_, c, _, h⟩ := encodeAnswer_cases fill req <;> rw [h] <;> rfl

/-- DECODE drives no 64-bit result. -/
theorem answerOf_decode_drive_frame (req : Request) :
    (answerOf .decode req).drive.valid = true ∧ (answerOf .decode req).drive.result = 0 ∧
      (answerOf .decode req).drive.resultLe = 0 ∧ (answerOf .decode req).drive.advisory = false := by
  rw [answerOf_decode]
  split <;> exact ⟨rfl, rfl, rfl, rfl⟩

/-- BSWAP drives neither a decode field nor the advisory. -/
theorem answerOf_bswap_drive_frame (req : Request) :
    (answerOf .bswap req).drive = { Response.idle with
      valid := true
      status := (answerOf .bswap req).drive.status
      result := (answerOf .bswap req).drive.result
      resultLe := (answerOf .bswap req).drive.resultLe } := by
  rw [answerOf_bswap]
  split <;> rfl

/-- Settles O18, one frame per kind of operation. -/
theorem operationsDriveOnlyTheirFields : Obligations.OperationsDriveOnlyTheirFields := by
  intro i s
  refine ⟨_, exec_eq_answer i s, rfl, ?_, ?_, ?_, ?_⟩
  · rintro fill (h | h)
    · rw [answerOf_of_encodeForm h]; exact encodeAnswer_drive_frame _ _
    · rw [answerOf_of_randgenForm h]; exact encodeAnswer_drive_frame _ _
  · rintro rfl; exact answerOf_decode_drive_frame _
  · rintro rfl; exact answerOf_bswap_drive_frame _
  · rintro op rfl; rfl

/-! DECODE. -/

theorem fieldRecord_injective : Function.Injective fieldRecord := by
  intro d d' h
  have hraw : DescFields.extract d = DescFields.extract d' := congrArg FieldRecord.raw h
  rw [← DescFields.assemble_extract d, hraw, DescFields.assemble_extract]

/-- Settles O34: the response gives back the field record, and assembling its raw fields gives back the descriptor. -/
theorem decodeLosesNoBit : Obligations.DecodeLosesNoBit := by
  intro s s' h h'
  refine ⟨_, _, exec_eq_answer .decode s, exec_eq_answer .decode s', fun hresp => ?_⟩
  have hans : answerOf .decode s.req = answerOf .decode s'.req := Answer.drive_injective hresp
  rw [answerOf_decode, answerOf_decode, if_pos h, if_pos h', Answer.fields.injEq] at hans
  exact fieldRecord_injective hans

/-! The reserved codes and the pseudo-operations. -/

/-- Settles O44: the operation of a request with `op[2] = 1` is the reserved one. -/
theorem reservedCodesAreInvalidOperations : Obligations.ReservedCodesAreInvalidOperations := by
  refine ⟨fun op s => exec_eq_answer _ s, fun s hv hop => ?_⟩
  have hi : s.req.instr = .reserved s.req.op := decodeFields_of_reserved hop _
  rw [step_eq, driven, if_pos hv, hi]
  rfl

/-- Settles O25: both sides have the same answer. -/
theorem pseudoOperationsAreTheirExpansions : Obligations.PseudoOperationsAreTheirExpansions :=
  fun _ => ⟨rfl, rfl, rfl, rfl⟩

end Sys2Proof.Machine

/-! The operation that a step runs is the one that `op` and `fill_sel` of the request select (O5, O6), also for a
request written as a line (O49). -/

namespace Sys2Proof.Machine

/-- A step on a valid request is its operation, with the request consumed (30_encoding.md R42, R47). -/
theorem step_of_valid {s : State} (h : s.req.valid = true) :
    ∃ t, exec s.req.instr s = .next t ∧ step s = .next { t with requests := s.requests.tail } := by
  refine ⟨_, exec_eq_answer _ s, ?_⟩
  rw [step_eq, driven, if_pos h]
  rfl

/-- Settles O5: the word `op · fill_sel` decodes to the request's own operation. -/
theorem stepRunsTheSelectedOperation : Obligations.StepRunsTheSelectedOperation := by
  intro s i hv hd
  rw [decodeWord_toNat, Selector.op_append, Selector.fill_append, Except.ok.injEq] at hd
  exact hd ▸ step_of_valid hv

/-- Settles O6: the placed request is valid, and its `op` and `fill_sel` are those of the word. -/
theorem placedWordRunsNext : Obligations.PlacedWordRunsNext := by
  intro s nbits w i h
  obtain ⟨-, hi⟩ := decodeWord_eq_ok_iff.mp (decodeTableWord_eq_some_iff.mp h)
  exact hi ▸ step_of_valid (s := s.withFetchWord nbits w) rfl

theorem Line.request_valid (l : Line) : l.request.valid = true := by
  cases l <;> rfl

/-- Settles O49: a line's request has the `op` and the fill that the line names. -/
theorem linesSelectTheirOperation : Obligations.LinesSelectTheirOperation := by
  refine ⟨fun o => ⟨rfl, rfl, ?_, ?_, ?_⟩, fun _ _ => ⟨rfl, rfl⟩, fun g fill rnd => ⟨rfl, rfl, ?_, ?_, ?_⟩,
    Line.request_valid⟩
  · exact fun h0 h1 => decodeFields_op0_of_isPlain ((FillSel.isPlain_iff _).mpr ⟨h0, h1⟩)
  · exact congrArg (decodeFields 0#3)
  · exact congrArg (decodeFields 0#3)
  · exact fun h0 h1 => decodeFields_op3_of_isPlain ((FillSel.isPlain_iff _).mpr ⟨h0, h1⟩)
  · exact congrArg (decodeFields 3#3)
  · exact congrArg (decodeFields 3#3)

end Sys2Proof.Machine

/-! An operation reads no more of the request than the table of 30_encoding.md R44 says (O16): each multiplexer reads
its random bit or its fixed value, never both, and no operand is read before its tags are accepted. -/

namespace Sys2Proof.Machine
open Sys2Proof.Claims

/-- A multiplexer reads its random bit only if selected, and its fixed value only if not (40_encode.md R65). -/
theorem fillBit_congr {fill : FillSel} {rnd rnd' : Draw} {sel rb : Nat} {fixed fixed' : Bool}
    (hr : fill.getLsbD sel = true → rnd.getLsbD rb = rnd'.getLsbD rb)
    (hf : fill.getLsbD sel = false → fixed = fixed') :
    fillBit fill rnd sel rb fixed = fillBit fill rnd' sel rb fixed' := by
  cases h : fill.getLsbD sel with
  | false => rw [fillBit_of_not_selected h, fillBit_of_not_selected h, hf h]
  | true => rw [fillBit_of_selected h, fillBit_of_selected h, hr h]

theorem fillDpl_congr {fill : FillSel} {rnd rnd' : Draw}
    (hr : fill.getLsbD 3 = true → rnd.extractLsb' 3 2 = rnd'.extractLsb' 3 2) :
    fillDpl fill rnd = fillDpl fill rnd' :=
  ite_congr rfl hr fun _ => rfl

/-- `gran` is read only if it is present (40_encode.md R66). -/
theorem Request.gFixed_congr {req req' : Request} (hp : req.granPresent = req'.granPresent)
    (hg : req.granPresent = true → req.gran = req'.gran) : req.gFixed = req'.gFixed :=
  ite_congr (congrArg (· = true) hp) (fun h => hg (hp.trans h)) fun _ => rfl

/-- ENCODE's fields come from base, limit, class, and what the fill selects of the granularity and the draw. -/
theorem encodeFields_congr {req req' : Request} (hbase : req.base = req'.base) (hlimit : req.limit = req'.limit)
    (hgran : SameGran req req') (hfill : SameFill req req') (c : SegClass) :
    encodeFields req.fillSel req c = encodeFields req.fillSel req' c := by
  obtain ⟨hG, hD, hL, hAvl, hP, hDpl, hS, hSub, hAcd⟩ := hfill
  have hgFixed (h : req.fillSel.getLsbD 8 = false) : req.gFixed = req'.gFixed :=
    Request.gFixed_congr (hgran h).1 (hgran h).2
  unfold encodeFields
  rw [hbase, hlimit, fillBit_congr hG hgFixed, fillBit_congr hD fun _ => rfl, fillBit_congr hL fun _ => rfl,
    fillBit_congr hAvl fun _ => rfl, fillBit_congr hP fun _ => rfl, fillDpl_congr hDpl,
    fillBit_congr hS fun _ => rfl, fillBit_congr hSub fun _ => rfl, fillBit_congr hAcd fun _ => rfl]

/-- ENCODE reads both tags, and the operands only if the tags are accepted (40_encode.md R60). -/
theorem encodeAnswer_congr {req req' : Request} (hbl : req.baseLen = req'.baseLen)
    (hll : req.limitLen = req'.limitLen)
    (hops : req.baseLen = 32 ∧ req.limitLen = 20 → req.base = req'.base ∧ req.limit = req'.limit ∧
      req.readable = req'.readable ∧ req.executable = req'.executable ∧ req.writable = req'.writable)
    (hgran : SameGran req req') (hfill : SameFill req req') :
    encodeAnswer req.fillSel req = encodeAnswer req.fillSel req' := by
  have hwidths : req'.widthsOk = req.widthsOk := by rw [Request.widthsOk, Request.widthsOk, hbl, hll]
  cases hw : req.widthsOk with
  | false => rw [encodeAnswer_of_not_widthsOk hw, encodeAnswer_of_not_widthsOk (hwidths.trans hw)]
  | true =>
    obtain ⟨hbase, hlimit, hr, hx, hwr⟩ := hops (req.widthsOk_iff.mp hw)
    simp only [encodeAnswer, hwidths, encodeClassified, hr, hx, hwr, encodeFields_congr hbase hlimit hgran hfill]

/-- Draws that agree from bit 10 up give RANDGEN the same operands (43_randgen.md R90). -/
theorem Request.drawn_operands_congr {req req' : Request}
    (h : req.rnd.extractLsb' 10 55 = req'.rnd.extractLsb' 10 55) :
    req.drawn.base = req'.drawn.base ∧ req.drawn.limit = req'.drawn.limit ∧
      req.drawn.readable = req'.drawn.readable ∧ req.drawn.executable = req'.drawn.executable ∧
      req.drawn.writable = req'.drawn.writable := by
  have hbit (j : Nat) (hj : j < 55) : req.rnd.getLsbD (10 + j) = req'.rnd.getLsbD (10 + j) := by
    simpa [hj] using congrArg (BitVec.getLsbD · j) h
  have hslice (j n : Nat) (hn : j + n ≤ 55) :
      req.rnd.extractLsb' (10 + j) n = req'.rnd.extractLsb' (10 + j) n := by
    refine BitVec.eq_of_getLsbD_eq fun i hi => ?_
    simp only [BitVec.getLsbD_extractLsb', hi, decide_true, Bool.true_and, Nat.add_assoc]
    exact hbit (j + i) (by omega)
  exact ⟨hslice 23 32 (by omega), hslice 3 20 (by omega), hbit 2 (by omega), hbit 1 (by omega), hbit 0 (by omega)⟩

/-- Requests that agree on what their operation reads have the same answer: one case for each `op` (R44). -/
theorem answerOf_instr_congr {req req' : Request} (hop : req.op = req'.op) (h : SameReads req req') :
    answerOf req.instr req = answerOf req'.instr req' := by
  obtain ⟨henc, hdesc, hrand⟩ := h
  rcases OpCode.cases req.op with h0 | h1 | h2 | h3 | h4
  · obtain ⟨hsel, hbl, hll, hops, hgran, hfill⟩ := henc h0
    rw [Request.answerOf_instr_of_op0 h0, Request.answerOf_instr_of_op0 (hop ▸ h0), ← hsel]
    exact encodeAnswer_congr hbl hll hops hgran hfill
  · obtain ⟨hlen, hd⟩ := hdesc (.inl h1)
    rw [Request.instr_of_op1 h1, Request.instr_of_op1 (hop ▸ h1), answerOf_decode, answerOf_decode, ← hlen]
    exact ite_congr rfl (fun hl => by rw [hd hl]) fun _ => rfl
  · obtain ⟨hlen, hd⟩ := hdesc (.inr h2)
    rw [Request.instr_of_op2 h2, Request.instr_of_op2 (hop ▸ h2), answerOf_bswap, answerOf_bswap, ← hlen]
    exact ite_congr rfl (fun hl => by rw [hd hl]) fun _ => rfl
  · obtain ⟨hsel, hdraw, hgran, hfill⟩ := hrand h3
    rw [Request.answerOf_instr_of_op3 h3, Request.answerOf_instr_of_op3 (hop ▸ h3), ← hsel]
    exact encodeAnswer_congr (req := req.drawn) rfl rfl (fun _ => Request.drawn_operands_congr hdraw) hgran hfill
  · rw [Request.instr_of_reserved h4, Request.instr_of_reserved (hop ▸ h4)]
    rfl

/-- Settles O16: a step on a valid request drives its operation's answer. -/
theorem unreadRequestFieldsAreIgnored : Obligations.UnreadRequestFieldsAreIgnored := by
  intro s s' hv hv' hop hreads
  refine ⟨_, _, step_eq s, step_eq s', ?_⟩
  simp only [driven, hv, hv', if_true, answerOf_instr_congr hop hreads]

end Sys2Proof.Machine

/-! ENCODE whole: its answer to a wrong tag and to an accepted triple, written as the rules write them (O19, O22), what
the two pseudo-operations' fills make of it (O23, O24), triples of one class (O26), and the advisory (O17). -/

namespace Sys2Proof.Machine
open Sys2Proof.Claims

/-- The three ENCODE operations answer alike, each under its fill (30_encoding.md R56). -/
theorem exec_of_encodeForm {i : Instr} {fill : FillSel} (h : EncodeForm i fill) (s : State) :
    exec i s = .next { s with resp := (encodeAnswer fill s.req).drive } := by
  rw [exec_eq_answer, answerOf_of_encodeForm h, State.answer_eq]

/-- Settles O19: the tags are looked at first. -/
theorem encodeRefusesWrongWidths : Obligations.EncodeRefusesWrongWidths := by
  intro i fill s hform htags
  have hw : s.req.widthsOk = false := by
    rw [Bool.eq_false_iff, ne_eq, Request.widthsOk_iff]
    tauto
  rw [exec_of_encodeForm hform, encodeAnswer_of_not_widthsOk hw]
  rfl

/-! The accepted triples. -/

/-- The accepted rows of R62 are the successes of the decision table. -/
theorem accepts_iff_classify_eq_ok {r x w type acc : Bool} :
    Accepts r x w type acc ↔ classify r x w = .ok { type := type, accessibility := acc } := by
  revert r x w type acc
  unfold Accepts
  decide

/-- The descriptor of a class is the canonical assembly of R67, each field from the multiplexer of R65 or R66. -/
theorem encodeFields_assemble_eq_layout (fill : FillSel) (req : Request) (type acc : Bool) :
    (encodeFields fill req { type := type, accessibility := acc }).assemble =
      layout req.base req.limit (flagsOf fill req) (accessOf fill req type acc) := rfl

/-- ENCODE with right tags and an accepted triple (R68). -/
theorem encodeAnswer_of_encodeOk {req : Request} {type acc : Bool} (h : EncodeOk req type acc) (fill : FillSel) :
    encodeAnswer fill req = .word (layout req.base req.limit (flagsOf fill req) (accessOf fill req type acc))
      (Config.advisoryEn && type) := by
  obtain ⟨hbase, hlimit, hacc⟩ := h
  rw [encodeAnswer_of_ok (req.widthsOk_iff.mpr ⟨hbase, hlimit⟩) (accepts_iff_classify_eq_ok.mp hacc),
    encodeFields_assemble_eq_layout, advisoryBit]

/-- The three ENCODE operations, each with right tags and an accepted triple. -/
theorem exec_of_encodeForm_of_encodeOk {i : Instr} {fill : FillSel} {s : State} {type acc : Bool}
    (hform : EncodeForm i fill) (h : EncodeOk s.req type acc) :
    exec i s = .next { s with resp :=
      (wordOnly (layout s.req.base s.req.limit (flagsOf fill s.req) (accessOf fill s.req type acc))
        (Config.advisoryEn && type)) } := by
  rw [exec_of_encodeForm hform, encodeAnswer_of_encodeOk h]
  rfl

/-- Settles O22, as the base row's case of the three ENCODE operations. -/
theorem encodeAssemblesTheDescriptor : Obligations.EncodeAssemblesTheDescriptor :=
  fun _ _ _ _ h => exec_of_encodeForm_of_encodeOk (.inl rfl) h

/-! Fill 0x000 selects no bit of `rnd` (R64). -/

theorem flagsOf_fill_none (req : Request) : flagsOf 0x000#9 req = one (gFixed req) ++ 0b100#3 := by
  calc flagsOf 0x000#9 req
    _ = one (gFixed req) ++ 0b1#1 ++ 0b0#1 ++ 0b0#1 := rfl
    _ = one (gFixed req) ++ 0b100#3 := by cases gFixed req <;> rfl

theorem accessOf_fill_none (req : Request) (type acc : Bool) :
    accessOf 0x000#9 req type acc = 0b1001#4 ++ one type ++ 0b0#1 ++ one acc ++ 0b0#1 := by
  have hnibble : 0b1#1 ++ 0b00#2 ++ 0b1#1 = 0b1001#4 := rfl
  rw [← hnibble]
  rfl

/-- Settles O23: ENCODE under fill 0x000. -/
theorem encodePmFixesTheUnconstrainedFields : Obligations.EncodePmFixesTheUnconstrainedFields := by
  intro s type acc h
  rw [exec_of_encodeForm_of_encodeOk (.inr (.inl ⟨rfl, rfl⟩)) h, flagsOf_fill_none, accessOf_fill_none]

/-! Fill 0x1FF selects every one, and the draw has them in descriptor order (R65, 30_encoding.md R50), so the bits of a
nibble join to one slice of `rnd`. -/

theorem one_getLsbD {n : Nat} (v : BitVec n) (i : Nat) : one (v.getLsbD i) = v.extractLsb' i 1 := by
  refine BitVec.eq_of_getLsbD_eq fun j hj => ?_
  obtain rfl := Nat.lt_one_iff.mp hj
  simp

theorem flagsOf_fill_all (req : Request) : flagsOf 0x1FF#9 req = req.rnd.extractLsb' 6 4 := by
  calc flagsOf 0x1FF#9 req
    _ = one (req.rnd.getLsbD 9) ++ one (req.rnd.getLsbD 8) ++ one (req.rnd.getLsbD 7) ++ one (req.rnd.getLsbD 6) := rfl
    _ = req.rnd.extractLsb' 6 4 := by
      simp only [one_getLsbD, BitVec.extractLsb'_append_extractLsb'_eq_extractLsb']

theorem accessOf_fill_all (req : Request) (type acc : Bool) :
    accessOf 0x1FF#9 req type acc =
      req.rnd.extractLsb' 2 4 ++ one type ++ one (req.rnd.getLsbD 1) ++ one acc ++ one (req.rnd.getLsbD 0) := by
  have hnibble : one (req.rnd.getLsbD 5) ++ req.rnd.extractLsb' 3 2 ++ one (req.rnd.getLsbD 2) =
      req.rnd.extractLsb' 2 4 := by
    simp only [one_getLsbD, BitVec.extractLsb'_append_extractLsb'_eq_extractLsb']
  rw [← hnibble]
  rfl

/-- Settles O24: ENCODE under fill 0x1FF. -/
theorem encodeGenTakesTheDrawnFields : Obligations.EncodeGenTakesTheDrawnFields := by
  intro s type acc h
  rw [exec_of_encodeForm_of_encodeOk (.inr (.inr ⟨rfl, rfl⟩)) h, flagsOf_fill_all, accessOf_fill_all]

/-! Triples of one class. -/

/-- ENCODE reads the attributes through the decision table alone (R63). -/
theorem encodeAnswer_withAttributes_congr {r x w r' x' w' : Bool} (h : classify r x w = classify r' x' w')
    (fill : FillSel) (s : State) :
    encodeAnswer fill (withAttributes s r x w).req = encodeAnswer fill (withAttributes s r' x' w').req := by
  simp only [encodeAnswer, encodeClassified, withAttributes, State.req_cons, h]
  rfl

/-- Settles O26: each pair of triples is one class of the decision table. -/
theorem attributeTriplesOfOneClassAgree : Obligations.AttributeTriplesOfOneClassAgree := by
  intro i fill s hform
  refine ⟨⟨_, exec_of_encodeForm hform _, ?_⟩, ⟨_, exec_of_encodeForm hform _, ?_⟩⟩
  · have hcode : classify true false false = classify true true false := rfl
    rw [exec_of_encodeForm hform, encodeAnswer_withAttributes_congr hcode]
  · have hdata : classify false false true = classify true false true := rfl
    rw [exec_of_encodeForm hform, encodeAnswer_withAttributes_congr hdata]

/-! The advisory (R70). -/

/-- ENCODE sets it exactly with a code descriptor, whose Type is bit 43. -/
theorem encodeAnswer_advisory_iff (fill : FillSel) (req : Request) :
    (encodeAnswer fill req).drive.advisory = true ↔
      Config.advisoryEn = true ∧ (encodeAnswer fill req).drive.status = 0 ∧
        (encodeAnswer fill req).drive.result.getLsbD 43 = true := by
  obtain ⟨_, h⟩ | ⟨_, k, _, h⟩ | ⟨_, c, _, h⟩ := encodeAnswer_cases fill req <;> rw [h]
  · simp
  · simp
  · rw [Answer.drive_word_result, encodeFields_assemble_type]
    simp [advisoryBit]

/-- No other operation sets it. -/
theorem answerOf_instr_advisory_of_op_ne {req : Request} (h0 : req.op ≠ 0#3) (h3 : req.op ≠ 3#3) :
    (answerOf req.instr req).drive.advisory = false := by
  rcases OpCode.cases req.op with h | h | h | h | h
  · exact absurd h h0
  · rw [Request.instr_of_op1 h]
    obtain ⟨-, -, -, hadv⟩ := answerOf_decode_drive_frame req
    exact hadv
  · rw [Request.instr_of_op2 h, answerOf_bswap_drive_frame]
    rfl
  · exact absurd h h3
  · rw [Request.instr_of_reserved h]
    rfl

/-- Settles O17: ENCODE and RANDGEN both give ENCODE's answer. -/
theorem advisoryMarksCodeDescriptors : Obligations.AdvisoryMarksCodeDescriptors := by
  intro s hv
  refine ⟨_, step_eq s, ?_⟩
  simp only [driven, hv, if_true]
  by_cases h0 : s.req.op = 0
  · simp only [Request.answerOf_instr_of_op0 h0, h0, true_or, true_and]
    exact encodeAnswer_advisory_iff _ _
  · by_cases h3 : s.req.op = 3
    · simp only [Request.answerOf_instr_of_op3 h3, h3, or_true, true_and]
      exact encodeAnswer_advisory_iff _ _
    · simp only [answerOf_instr_advisory_of_op_ne h0 h3, h0, h3, Bool.false_eq_true, or_self, false_and, and_false]

end Sys2Proof.Machine

/-! DECODE whole: both sides of its length check (O32), and its labels, in their codes and as the host reads them
(O33). -/

namespace Sys2Proof.Machine
open Sys2Proof.Claims

/-- The only failure of DECODE (41_decode.md R74). -/
theorem exec_decode_of_descLen_ne {s : State} (h : s.req.descLen ≠ 64) :
    exec .decode s = .next { s with resp := errorOnly 4 } := by
  rw [exec_eq_answer, answerOf_decode, if_neg h]
  rfl

/-- Any 64-bit operand is decoded (41_decode.md R80). -/
theorem exec_decode_of_descLen_eq {s : State} (h : s.req.descLen = 64) :
    exec .decode s = .next { s with resp := (Answer.fields (fieldRecord s.req.desc)).drive } := by
  rw [exec_eq_answer, answerOf_decode, if_pos h, State.answer_eq]

/-- `lbl_subtype` as the DECODE listing of R81 computes it. -/
theorem subtypeLabel_code_eq_listing (type subtype : Bool) :
    (subtypeLabel type subtype).code = if type = false then 0b01 else if subtype = false then 0b10 else 0b11 := by
  cases type <;> cases subtype <;> rfl

/-- `lbl_perm` as the DECODE listing of R81 computes it, the letters R, W, X joined. -/
theorem permLabel_code_eq_letters (type acc : Bool) :
    (permLabel type acc).code =
      if type = false then 0b1#1 ++ one acc ++ 0b0#1 else one acc ++ 0b0#1 ++ 0b1#1 := by
  cases type <;> cases acc <;> rfl

/-- Settles O32: the driven field record has every field of the listing by definition, once its two label codes are
written as the listing has them. -/
theorem decodeExtractsEveryField : Obligations.DecodeExtractsEveryField := by
  intro s
  refine ⟨exec_decode_of_descLen_ne, fun h => ?_⟩
  rw [exec_decode_of_descLen_eq h, ← subtypeLabel_code_eq_listing, ← permLabel_code_eq_letters]
  rfl

/-! The labels of a field record and the codes driven for them, by Type, Subtype and Accessibility. -/

theorem fieldRecord_type_label {d : Word} {type : Bool} (ht : d.getLsbD 43 = type) :
    (fieldRecord d).code = type ∧ (Answer.fields (fieldRecord d)).drive.lblType = type :=
  ⟨ht, ht⟩

theorem fieldRecord_subtype_label {d : Word} {type subtype : Bool} (ht : d.getLsbD 43 = type)
    (hs : d.getLsbD 42 = subtype) :
    (fieldRecord d).subtype = subtypeLabel type subtype ∧
      (Answer.fields (fieldRecord d)).drive.lblSubtype = (subtypeLabel type subtype).code := by
  subst ht hs
  exact ⟨rfl, rfl⟩

theorem fieldRecord_perm_label {d : Word} {type acc : Bool} (ht : d.getLsbD 43 = type) (ha : d.getLsbD 41 = acc) :
    (fieldRecord d).perm = permLabel type acc ∧
      (Answer.fields (fieldRecord d)).drive.lblPerm = (permLabel type acc).code := by
  subst ht ha
  exact ⟨rfl, rfl⟩

/-- Settles O33, row by row of the tables of R78 and R79; the host reads back the field record that was driven. -/
theorem decodeLabelsFollowTypeBits : Obligations.DecodeLabelsFollowTypeBits := by
  intro s h
  refine ⟨_, _, exec_decode_of_descLen_eq h, Answer.read_drive _, fun htype => ?data, fun htype => ?code⟩
  case data =>
    obtain ⟨hcode, hlblType⟩ := fieldRecord_type_label htype
    obtain ⟨hsub, hlblSubtype⟩ := fieldRecord_subtype_label htype rfl
    exact ⟨hcode, hlblType, hsub, hlblSubtype, fieldRecord_perm_label htype, fieldRecord_perm_label htype⟩
  case code =>
    obtain ⟨hcode, hlblType⟩ := fieldRecord_type_label htype
    exact ⟨hcode, hlblType, fieldRecord_subtype_label htype, fieldRecord_subtype_label htype,
      fieldRecord_perm_label htype, fieldRecord_perm_label htype⟩

end Sys2Proof.Machine

/-! The byte reversal, byte by byte (42_bswap.md R84, R87, R88: O36, O37, O38), and BSWAP whole (R85, R86: O39). -/

namespace Sys2Proof.Machine
open Sys2Proof.Claims

/-! The bytes of a 64-bit value determine it. -/

theorem byteOf_getLsbD (v : Word) (k : Nat) {j : Nat} (h : j < 8) : (byteOf v k).getLsbD j = v.getLsbD (8 * k + j) := by
  simp [byteOf, h]

/-- Bit `i` is bit `i % 8` of byte `i / 8`. -/
theorem word_eq_of_byteOf_eq {v w : Word} (h : ∀ k, k < 8 → byteOf v k = byteOf w k) : v = w := by
  refine BitVec.eq_of_getLsbD_eq fun i hi => ?_
  have hj : i % 8 < 8 := Nat.mod_lt i (by decide)
  rw [← Nat.div_add_mod i 8, ← byteOf_getLsbD v _ hj, ← byteOf_getLsbD w _ hj, h (i / 8) (by omega)]

/-! The reversal gives byte `k` the opposite byte, bit by bit (R84). -/

theorem bswap64_getLsbD_byte (v : Word) {k j : Nat} (hk : k < 8) (hj : j < 8) :
    (bswap64 v).getLsbD (8 * k + j) = v.getLsbD (8 * (7 - k) + j) := by
  have hdiv : (8 * k + j) / 8 = k := by omega
  have hmod : (8 * k + j) % 8 = j := by omega
  rw [bswap64_getLsbD v _ (by omega), hdiv, hmod]

theorem byteOf_bswap64 (v : Word) {k : Nat} (hk : k < 8) : byteOf (bswap64 v) k = byteOf v (7 - k) := by
  refine BitVec.eq_of_getLsbD_eq fun j hj => ?_
  rw [byteOf_getLsbD _ _ hj, byteOf_getLsbD _ _ hj, bswap64_getLsbD_byte v hk hj]

/-- Settles O36: `byteOf` is the statement's slice. -/
theorem byteReversalKeepsBitsInBytes : Obligations.ByteReversalKeepsBitsInBytes :=
  fun v _ _ hk hj => ⟨byteOf_bswap64 v hk, bswap64_getLsbD_byte v hk hj⟩

/-- The opposite of the opposite byte is the byte itself (R87). -/
theorem bswap64_involutive : Function.Involutive bswap64 := by
  refine fun v => word_eq_of_byteOf_eq fun k hk => ?_
  have hopp : 7 - (7 - k) = k := by omega
  calc byteOf (bswap64 (bswap64 v)) k
    _ = byteOf (bswap64 v) (7 - k) := byteOf_bswap64 _ hk
    _ = byteOf v (7 - (7 - k)) := byteOf_bswap64 v (by omega)
    _ = byteOf v k := by rw [hopp]

/-- Settles O37: an involution is a bijection. -/
theorem byteReversalIsAnInvolution : Obligations.ByteReversalIsAnInvolution :=
  ⟨bswap64_involutive, bswap64_involutive.bijective⟩

/-- Each of the upper four bytes is the opposite of a lower one, so comparing the lower four compares all eight (R88). -/
theorem bswap64_eq_self_iff (v : Word) : bswap64 v = v ↔ ∀ k, k < 4 → byteOf v k = byteOf v (7 - k) := by
  constructor
  · intro hfix k hk
    rw [← byteOf_bswap64 v (by omega), hfix]
  · refine fun hpal => word_eq_of_byteOf_eq fun k hk => ?_
    rw [byteOf_bswap64 v hk]
    rcases Nat.lt_or_ge k 4 with hlow | hhigh
    · exact (hpal k hlow).symm
    · have hopp : 7 - (7 - k) = k := by omega
      rw [hpal (7 - k) (by omega), hopp]

/-- Settles O38: `byteOf` is the statement's slice. -/
theorem byteReversalFixesPalindromes : Obligations.ByteReversalFixesPalindromes := bswap64_eq_self_iff

/-! BSWAP, on both sides of its length check (R85). -/

theorem exec_bswap_of_descLen_ne {s : State} (h : s.req.descLen ≠ 64) :
    exec .bswap s = .next { s with resp := errorOnly 4 } := by
  rw [exec_eq_answer, answerOf_bswap, if_neg h]
  rfl

/-- `result_le` reverses `result`, so it is the operand again (R87). -/
theorem exec_bswap_of_descLen_eq {s : State} (h : s.req.descLen = 64) :
    exec .bswap s = .next { s with resp :=
      { Response.idle with valid := true, result := bswap64 s.req.desc, resultLe := s.req.desc } } := by
  rw [exec_eq_answer, answerOf_bswap, if_pos h, State.answer_eq, Answer.drive, bswap64_involutive]
  rfl

/-- Settles O39: the statement's eight slices are the definition of `bswap64`. -/
theorem bswapReversesItsOperand : Obligations.BswapReversesItsOperand :=
  fun _ => ⟨exec_bswap_of_descLen_ne, exec_bswap_of_descLen_eq⟩

end Sys2Proof.Machine

/-! RANDGEN (43_randgen.md R90 to R95): ENCODE's answer for the drawn operands, whose widths are always right (O40); so
it completes with an accepted drawn triple (O41), fails with a rejected one (O42), and the status is a function of the
triple alone (O43). -/

namespace Sys2Proof.Machine
open Sys2Proof.Claims

/-- The three RANDGEN operations answer as ENCODE of the draw, each under its fill (R94, 30_encoding.md R56). -/
theorem exec_of_randgenForm {i : Instr} {fill : FillSel} (h : RandgenForm i fill) (s : State) :
    exec i s = .next { s with resp := (encodeAnswer fill s.req.drawn).drive } := by
  rw [exec_eq_answer, answerOf_of_randgenForm h, State.answer_eq]

/-- Settles O40: the request that the statement writes out is the drawn one. -/
theorem randgenIsEncodeOfTheDraw : Obligations.RandgenIsEncodeOfTheDraw := by
  intro i fill s hform
  refine ⟨_, exec_of_randgenForm hform s, fun s' hreq => ?_⟩
  have hdrawn : s'.req = s.req.drawn := hreq
  rw [exec_of_encodeForm (.inl rfl), hdrawn]

/-- The drawn operands carry the accepted tags, so the triple alone decides (R90). -/
theorem encodeOk_drawn_of_drawOk {req : Request} {type acc : Bool} (h : DrawOk req type acc) :
    EncodeOk req.drawn type acc :=
  ⟨rfl, rfl, h⟩

/-- The draw replaces operands that no multiplexer reads: granularity and `rnd` stay (R91). -/
@[simp] theorem flagsOf_drawn (fill : FillSel) (req : Request) : flagsOf fill req.drawn = flagsOf fill req := rfl

@[simp] theorem accessOf_drawn (fill : FillSel) (req : Request) (type acc : Bool) :
    accessOf fill req.drawn type acc = accessOf fill req type acc := rfl

/-- Settles O41: ENCODE of the drawn request, whose base and limit are the statement's slices of `rnd`. -/
theorem randgenAssemblesTheDrawnDescriptor : Obligations.RandgenAssemblesTheDrawnDescriptor := by
  intro i fill s type acc hform hdraw
  rw [exec_of_randgenForm hform, encodeAnswer_of_encodeOk (encodeOk_drawn_of_drawOk hdraw), flagsOf_drawn,
    accessOf_drawn]
  rfl

/-! The rejected triples (R92). -/

theorem classify_of_executable_of_writable (r : Bool) : classify r true true = .error .invalidAttributeCombination := by
  cases r <;> rfl

theorem classify_of_no_attributes : classify false false false = .error .noAttributes := rfl

/-- RANDGEN with a drawn triple that the decision table rejects. -/
theorem exec_of_randgenForm_of_error {i : Instr} {fill : FillSel} {s : State} {k : ErrorKind}
    (hform : RandgenForm i fill)
    (h : classify (s.req.rnd.getLsbD 12) (s.req.rnd.getLsbD 11) (s.req.rnd.getLsbD 10) = .error k) :
    exec i s = .next { s with resp := errorOnly k.code } := by
  rw [exec_of_randgenForm hform, encodeAnswer_of_error s.req.drawn_widthsOk h]
  rfl

/-- Settles O42: a triple that is neither of the two kinds rejected is in a class. -/
theorem randgenFailsOnRejectedTriples : Obligations.RandgenFailsOnRejectedTriples := by
  intro i fill s hform
  refine ⟨fun hx hw => ?_, fun hr hx hw => ?_, fun hxw hnone => ?_⟩
  · exact exec_of_randgenForm_of_error hform (by rw [hx, hw, classify_of_executable_of_writable])
  · exact exec_of_randgenForm_of_error hform (by rw [hr, hx, hw, classify_of_no_attributes])
  · refine ⟨_, exec_of_randgenForm hform s, ?_⟩
    cases hc : classify (s.req.rnd.getLsbD 12) (s.req.rnd.getLsbD 11) (s.req.rnd.getLsbD 10) with
    | ok c =>
      rw [encodeAnswer_of_ok s.req.drawn_widthsOk hc]
      rfl
    | error k =>
      obtain ⟨hx, hw, -⟩ | ⟨hr, hx, hw, -⟩ := classify_error_cases hc
      · exact absurd ⟨hx, hw⟩ hxw
      · exact absurd ⟨hr, hx, hw⟩ hnone

/-! The status as a function of the triple, and the eight triples counted (R92, conflict C2). -/

/-- The status that the decision table gives a triple (40_encode.md R62, 60_exceptions.md R112). -/
def tripleStatus (readable executable writable : Bool) : BitVec 3 :=
  match classify readable executable writable with
  | .error kind => kind.code
  | .ok _ => 0

/-- Once the widths are right, the status of ENCODE is that of its triple. -/
theorem encodeAnswer_drive_status (fill : FillSel) {req : Request} (hw : req.widthsOk = true) :
    (encodeAnswer fill req).drive.status = tripleStatus req.readable req.executable req.writable := by
  cases hc : classify req.readable req.executable req.writable with
  | ok c =>
    rw [encodeAnswer_of_ok hw hc, tripleStatus, hc]
    rfl
  | error k =>
    rw [encodeAnswer_of_error hw hc, tripleStatus, hc]
    rfl

/-- The status of a valid RANDGEN request is that of the drawn triple. -/
theorem respond_status_of_randgen {req : Request} (hv : req.valid = true) (hop : req.op = 3) :
    (respond req).status = tripleStatus (req.rnd.getLsbD 12) (req.rnd.getLsbD 11) (req.rnd.getLsbD 10) := by
  rw [respond_eq_driven, driven, if_pos hv, Request.answerOf_instr_of_op3 hop,
    encodeAnswer_drive_status _ req.drawn_widthsOk]
  rfl

/-- The triple stands above the ten fill bits of a draw (30_encoding.md R50). -/
theorem getLsbD_draw_triple (hi : BitVec 52) (triple : BitVec 3) (lo : BitVec 10) {j : Nat} (h : j < 3) :
    (hi ++ triple ++ lo).getLsbD (10 + j) = triple.getLsbD j := by
  have habove : ¬ 10 + j < 10 := by omega
  rw [BitVec.getLsbD_append, if_neg habove, BitVec.getLsbD_append, Nat.add_sub_cancel_left, if_pos h]

/-- The statuses of the eight triples, in the order of the numbers they spell. -/
def tripleStatuses : List (BitVec 3) :=
  (List.range 8).map fun n =>
    tripleStatus ((BitVec.ofNat 3 n).getLsbD 2) ((BitVec.ofNat 3 n).getLsbD 1) ((BitVec.ofNat 3 n).getLsbD 0)

/-- Whatever else is drawn or requested, RANDGEN over the eight triples gives their statuses. -/
theorem respond_statuses_of_draws {req : Request} (hi : BitVec 52) (lo : BitVec 10) (hv : req.valid = true)
    (hop : req.op = 3) :
    ((List.range 8).map fun n => (respond { req with rnd := hi ++ BitVec.ofNat 3 n ++ lo }).status) =
      tripleStatuses := by
  refine List.map_congr_left fun n _ => ?_
  have hbit {j : Nat} (h : j < 3) := getLsbD_draw_triple hi (BitVec.ofNat 3 n) lo h
  rw [respond_status_of_randgen (req := { req with rnd := hi ++ BitVec.ofNat 3 n ++ lo }) hv hop,
    ← hbit (j := 2) (by decide), ← hbit (j := 1) (by decide), ← hbit (j := 0) (by decide)]

/-- Settles O43: the eight statuses do not depend on the rest, and are counted. -/
theorem randgenFailsForThreeOfEightTriples : Obligations.RandgenFailsForThreeOfEightTriples := by
  intro req hi lo hv hop
  rw [respond_statuses_of_draws hi lo hv hop]
  decide

end Sys2Proof.Machine

/-! The laws of the codec (44_views_and_laws.md R101 to R105, R110): DECODE of an ENCODE result (O35), the input of each
result bit (O27), injectivity (O28), and the descriptors that ENCODE can build (O29, O30, O31). All of them read the
result as the assembly of `encodeFields`, which extraction undoes. -/

namespace Sys2Proof.Machine
open Sys2Proof.Claims

theorem DescFields.assemble_injective : Function.Injective DescFields.assemble :=
  Function.LeftInverse.injective DescFields.extract_assemble

/-- The three ENCODE operations, each with right tags and an accepted triple: the result as an assembly of fields. -/
theorem exec_of_encodeForm_of_encodeOk_fields {i : Instr} {fill : FillSel} {s : State} {type acc : Bool}
    (hform : EncodeForm i fill) (h : EncodeOk s.req type acc) :
    exec i s = .next { s with resp :=
      (wordOnly (encodeFields fill s.req { type := type, accessibility := acc }).assemble
        (Config.advisoryEn && type)) } :=
  exec_of_encodeForm_of_encodeOk hform h

/-! The round trip. -/

/-- DECODE of an assembled descriptor returns the fields it was assembled from. -/
theorem exec_decode_of_desc_eq_assemble {s : State} {f : DescFields} (hlen : s.req.descLen = 64)
    (hdesc : s.req.desc = f.assemble) : ∃ u, exec .decode s = .next u ∧ u.resp.status = 0 ∧ u.resp.raw = f := by
  refine ⟨_, exec_decode_of_descLen_eq hlen, rfl, ?_⟩
  rw [Answer.drive_fields_raw, hdesc]
  exact f.extract_assemble

/-- Settles O35: the decoded fields are those that ENCODE assembled, each the output of its multiplexer. -/
theorem decodeOfEncodeResultReturnsItsFields : Obligations.DecodeOfEncodeResultReturnsItsFields := by
  intro fill s type acc hok
  refine ⟨_, exec_of_encodeForm_of_encodeOk_fields (.inl rfl) hok, rfl, fun s' hlen hdesc => ?_⟩
  obtain ⟨u, hexec, hstatus, hraw⟩ := exec_decode_of_desc_eq_assemble hlen hdesc
  have field {α : Type} (π : DescFields → α) := congrArg π hraw
  exact ⟨u, hexec, hstatus, field (·.base), field (·.limit), field (·.type), field (·.accessibility), field (·.g),
    field (·.d), field (·.l), field (·.avl), field (·.p), field (·.dpl), field (·.s), field (·.subtype),
    field (·.accessed)⟩

/-- Bit 41 of the descriptor that ENCODE builds is the Accessibility of its class. -/
theorem encodeFields_assemble_accessibility (fill : FillSel) (req : Request) (c : SegClass) :
    (encodeFields fill req c).assemble.getLsbD 41 = c.accessibility := by
  rw [DescFields.assemble_getLsbD]
  rfl

/-! The bits of the canonical assembly, one lemma for each piece of R67. -/

/-- The six pieces, from bit 0 up. -/
theorem layout_getLsbD (base : Base) (limit : Limit) (flags : BitVec 4) (access : BitVec 8) {i : Nat} (h : i < 64) :
    (layout base limit flags access).getLsbD i =
      if i < 16 then limit.getLsbD i else if i < 40 then base.getLsbD (i - 16)
      else if i < 48 then access.getLsbD (i - 40) else if i < 52 then limit.getLsbD (i - 32)
      else if i < 56 then flags.getLsbD (i - 52) else base.getLsbD (i - 32) := by
  simp only [layout, BitVec.getLsbD_append, BitVec.getLsbD_extractLsb']
  interval_cases i <;> simp

theorem layout_getLsbD_limit_low (base : Base) (limit : Limit) (flags : BitVec 4) (access : BitVec 8) {j : Nat}
    (h : j < 16) : (layout base limit flags access).getLsbD j = limit.getLsbD j := by
  rw [layout_getLsbD _ _ _ _ (by omega), if_pos h]

theorem layout_getLsbD_base_low (base : Base) (limit : Limit) (flags : BitVec 4) (access : BitVec 8) {j : Nat}
    (h : j < 24) : (layout base limit flags access).getLsbD (16 + j) = base.getLsbD j := by
  rw [layout_getLsbD _ _ _ _ (by omega), if_neg (by omega), if_pos (by omega), Nat.add_sub_cancel_left]

theorem layout_getLsbD_access (base : Base) (limit : Limit) (flags : BitVec 4) (access : BitVec 8) {j : Nat}
    (h : j < 8) : (layout base limit flags access).getLsbD (40 + j) = access.getLsbD j := by
  rw [layout_getLsbD _ _ _ _ (by omega), if_neg (by omega), if_neg (by omega), if_pos (by omega),
    Nat.add_sub_cancel_left]

theorem layout_getLsbD_limit_high (base : Base) (limit : Limit) (flags : BitVec 4) (access : BitVec 8) {j : Nat}
    (hlo : 16 ≤ j) (hhi : j < 20) : (layout base limit flags access).getLsbD (32 + j) = limit.getLsbD j := by
  rw [layout_getLsbD _ _ _ _ (by omega), if_neg (by omega), if_neg (by omega), if_neg (by omega), if_pos (by omega),
    Nat.add_sub_cancel_left]

theorem layout_getLsbD_flags (base : Base) (limit : Limit) (flags : BitVec 4) (access : BitVec 8) {j : Nat}
    (h : j < 4) : (layout base limit flags access).getLsbD (52 + j) = flags.getLsbD j := by
  rw [layout_getLsbD _ _ _ _ (by omega), if_neg (by omega), if_neg (by omega), if_neg (by omega), if_neg (by omega),
    if_pos (by omega), Nat.add_sub_cancel_left]

theorem layout_getLsbD_base_high (base : Base) (limit : Limit) (flags : BitVec 4) (access : BitVec 8) {j : Nat}
    (hlo : 24 ≤ j) (hhi : j < 32) : (layout base limit flags access).getLsbD (32 + j) = base.getLsbD j := by
  rw [layout_getLsbD _ _ _ _ (by omega), if_neg (by omega), if_neg (by omega), if_neg (by omega), if_neg (by omega),
    if_neg (by omega), Nat.add_sub_cancel_left]

/-- Settles O27: each clause is one piece of the assembly; Type and Accessibility are bits 43 and 41 of it. -/
theorem resultBitsDependOnTheirRowOnly : Obligations.ResultBitsDependOnTheirRowOnly := by
  intro fill fill' s s' type acc type' acc' hok hok'
  refine ⟨_, _, exec_of_encodeForm_of_encodeOk (.inl rfl) hok, exec_of_encodeForm_of_encodeOk (.inl rfl) hok',
    ?baseLow, ?baseHigh, ?limitLow, ?limitHigh, ?flags, ?access, ?type, ?acc⟩ <;> simp only [wordOnly]
  case baseLow =>
    intro j hj hbit
    rw [layout_getLsbD_base_low _ _ _ _ hj, layout_getLsbD_base_low _ _ _ _ hj, hbit]
  case baseHigh =>
    intro j hlo hhi hbit
    rw [layout_getLsbD_base_high _ _ _ _ hlo hhi, layout_getLsbD_base_high _ _ _ _ hlo hhi, hbit]
  case limitLow =>
    intro j hj hbit
    rw [layout_getLsbD_limit_low _ _ _ _ hj, layout_getLsbD_limit_low _ _ _ _ hj, hbit]
  case limitHigh =>
    intro j hlo hhi hbit
    rw [layout_getLsbD_limit_high _ _ _ _ hlo hhi, layout_getLsbD_limit_high _ _ _ _ hlo hhi, hbit]
  case flags =>
    intro j hj hbit
    rw [layout_getLsbD_flags _ _ _ _ hj, layout_getLsbD_flags _ _ _ _ hj, hbit]
  case access =>
    intro j hj hbit
    rw [layout_getLsbD_access _ _ _ _ hj, layout_getLsbD_access _ _ _ _ hj, hbit]
  case type =>
    intro htype
    rw [← encodeFields_assemble_eq_layout, ← encodeFields_assemble_eq_layout, encodeFields_assemble_type,
      encodeFields_assemble_type, htype]
  case acc =>
    intro hacc
    rw [← encodeFields_assemble_eq_layout, ← encodeFields_assemble_eq_layout, encodeFields_assemble_accessibility,
      encodeFields_assemble_accessibility, hacc]

/-! Injectivity. -/

/-- Under one fill, effective granularity and draw, the multiplexers agree, so the fields of two descriptors differ in
base, limit and class alone. -/
theorem encodeFields_eq_iff {fill : FillSel} {req req' : Request} {c c' : SegClass} (hg : req.gFixed = req'.gFixed)
    (hrnd : req.rnd = req'.rnd) :
    encodeFields fill req c = encodeFields fill req' c' ↔
      req.base = req'.base ∧ req.limit = req'.limit ∧ c.type = c'.type ∧ c.accessibility = c'.accessibility := by
  constructor
  · intro h
    have field {α : Type} (π : DescFields → α) := congrArg π h
    exact ⟨field (·.base), field (·.limit), field (·.type), field (·.accessibility)⟩
  · rintro ⟨hbase, hlimit, htype, hacc⟩
    simp only [encodeFields, hg, hrnd, hbase, hlimit, htype, hacc]

/-- Settles O28: assembly loses no field. -/
theorem encodeIsInjective : Obligations.EncodeIsInjective := by
  intro fill s s' type acc type' acc' hok hok' hg hrnd
  refine ⟨_, _, exec_of_encodeForm_of_encodeOk_fields (.inl rfl) hok,
    exec_of_encodeForm_of_encodeOk_fields (.inl rfl) hok', ?_⟩
  exact DescFields.assemble_injective.eq_iff.trans (encodeFields_eq_iff hg hrnd)

/-! The image of ENCODE (R105). -/

/-- The classes that some triple gives are all but read-only data (40_encode.md R63 b). -/
theorem not_readOnly_of_accepts {r x w type acc : Bool} (h : Accepts r x w type acc) :
    ¬ (type = false ∧ acc = false) := by
  obtain ⟨-, -, htype, -⟩ | ⟨-, hw, -, hacc⟩ := h
  · simp [htype]
  · simp [hacc, hw]

/-- One accepted triple for each of those classes. -/
theorem accepts_of_not_readOnly {type acc : Bool} (h : ¬ (type = false ∧ acc = false)) :
    Accepts acc type (!type) type acc := by
  cases type with
  | true => exact .inl ⟨.inr rfl, rfl, rfl, rfl⟩
  | false =>
    cases acc with
    | true => exact .inr ⟨rfl, rfl, rfl, rfl⟩
    | false => exact absurd ⟨rfl, rfl⟩ h

/-- All that a successful ENCODE can answer. -/
theorem encodeAnswer_of_status_zero {fill : FillSel} {req : Request} (h : (encodeAnswer fill req).drive.status = 0) :
    ∃ type acc, EncodeOk req type acc ∧ (encodeAnswer fill req).drive.result =
      (encodeFields fill req { type := type, accessibility := acc }).assemble := by
  obtain ⟨_, hans⟩ | ⟨_, k, _, hans⟩ | ⟨hw, c, hc, hans⟩ := encodeAnswer_cases fill req <;> rw [hans] at h ⊢
  · exact absurd h (ErrorKind.invalidFieldWidth).code_ne_zero
  · exact absurd h k.code_ne_zero
  · obtain ⟨hbase, hlimit⟩ := req.widthsOk_iff.mp hw
    exact ⟨c.type, c.accessibility, ⟨hbase, hlimit, accepts_iff_classify_eq_ok.mpr hc⟩, rfl⟩

theorem encodeAnswer_not_readOnly {fill : FillSel} {req : Request} (h : (encodeAnswer fill req).drive.status = 0) :
    ¬ ((encodeAnswer fill req).drive.result.getLsbD 43 = false ∧
      (encodeAnswer fill req).drive.result.getLsbD 41 = false) := by
  obtain ⟨type, acc, ⟨-, -, haccepts⟩, hresult⟩ := encodeAnswer_of_status_zero h
  rw [hresult, encodeFields_assemble_type, encodeFields_assemble_accessibility]
  exact not_readOnly_of_accepts haccepts

/-- Settles O29: both kinds of operation give ENCODE's answer, for the request or for its draw. -/
theorem readOnlyDataIsNeverBuilt : Obligations.ReadOnlyDataIsNeverBuilt := by
  rintro i fill s (hform | hform)
  · exact ⟨_, exec_of_encodeForm hform s, encodeAnswer_not_readOnly⟩
  · exact ⟨_, exec_of_randgenForm hform s, encodeAnswer_not_readOnly⟩

/-- An ENCODE operation reaches the words whose extracted fields some accepted request fills in. -/
theorem encodeForm_reaches_iff {i : Instr} {fill : FillSel} (hform : EncodeForm i fill) (d : Word) :
    (∃ s t : State, exec i s = .next t ∧ t.resp.status = 0 ∧ t.resp.result = d) ↔
      ∃ req type acc, EncodeOk req type acc ∧
        encodeFields fill req { type := type, accessibility := acc } = DescFields.extract d := by
  constructor
  · rintro ⟨s, t, hexec, hstatus, rfl⟩
    rw [exec_of_encodeForm hform, Host.Outcome.next.injEq] at hexec
    subst hexec
    obtain ⟨type, acc, hok, hresult⟩ := encodeAnswer_of_status_zero hstatus
    exact ⟨s.req, type, acc, hok, by rw [hresult, DescFields.extract_assemble]⟩
  · rintro ⟨req, type, acc, hok, hfields⟩
    have hok' : EncodeOk (State.req { requests := [req], resp := Response.idle }) type acc := hok
    refine ⟨_, _, exec_of_encodeForm_of_encodeOk_fields hform hok', rfl, ?_⟩
    calc (encodeFields fill req { type := type, accessibility := acc }).assemble
      _ = (DescFields.extract d).assemble := by rw [hfields]
      _ = d := DescFields.assemble_extract d

/-- A request for a descriptor with the given fields: its operands, an accepted triple of its class, G both as the
granularity and in the draw, and the other unconstrained fields in the draw (30_encoding.md R50). -/
def requestFor (f : DescFields) : Request :=
  { Request.idle with
    baseLen := 32
    base := f.base
    limitLen := 20
    limit := f.limit
    readable := f.accessibility
    executable := f.type
    writable := !f.type
    granPresent := true
    gran := f.g
    rnd := 0#55 ++ f.flags ++ bit f.p ++ f.dpl ++ bit f.s ++ bit f.subtype ++ bit f.accessed }

theorem requestFor_encodeOk {f : DescFields} (h : ¬ (f.type = false ∧ f.accessibility = false)) :
    EncodeOk (requestFor f) f.type f.accessibility :=
  ⟨rfl, rfl, accepts_of_not_readOnly h⟩

/-- The fill bits of that draw, in the order of 30_encoding.md R50. -/
theorem requestFor_rnd_getLsbD (f : DescFields) {i : Nat} (h : i < 10) :
    (requestFor f).rnd.getLsbD i =
      if i = 0 then f.accessed else if i = 1 then f.subtype else if i = 2 then f.s
      else if i < 5 then f.dpl.getLsbD (i - 3) else if i = 5 then f.p else if i = 6 then f.avl else if i = 7 then f.l else if i = 8 then f.d else f.g := by
  simp only [requestFor, DescFields.flags, bit, BitVec.getLsbD_append, BitVec.getLsbD_ofBool]
  interval_cases i <;> simp

theorem requestFor_rnd_dpl (f : DescFields) : (requestFor f).rnd.extractLsb' 3 2 = f.dpl := by
  refine BitVec.eq_of_getLsbD_eq fun j hj => ?_
  rw [BitVec.getLsbD_extractLsb', requestFor_rnd_getLsbD f (by omega)]
  interval_cases j <;> simp

/-- Fill 0x1FF takes every unconstrained field from the draw (R65), so it builds any fields. -/
theorem encodeFields_requestFor_fill_all (f : DescFields) :
    encodeFields 0x1FF#9 (requestFor f) { type := f.type, accessibility := f.accessibility } = f := by
  calc encodeFields 0x1FF#9 (requestFor f) { type := f.type, accessibility := f.accessibility }
    _ = { f with
          g := (requestFor f).rnd.getLsbD 9
          d := (requestFor f).rnd.getLsbD 8
          l := (requestFor f).rnd.getLsbD 7
          avl := (requestFor f).rnd.getLsbD 6
          p := (requestFor f).rnd.getLsbD 5
          dpl := (requestFor f).rnd.extractLsb' 3 2
          s := (requestFor f).rnd.getLsbD 2
          subtype := (requestFor f).rnd.getLsbD 1
          accessed := (requestFor f).rnd.getLsbD 0 } := rfl
    _ = f := by
      simp only [requestFor_rnd_dpl, requestFor_rnd_getLsbD, Nat.reduceLT]
      rfl

/-- Whatever the fill, the class that ENCODE fills in is not read-only data. -/
theorem not_readOnly_of_encodeFields_eq_extract {fill : FillSel} {req : Request} {type acc : Bool} {d : Word}
    (hok : EncodeOk req type acc)
    (h : encodeFields fill req { type := type, accessibility := acc } = DescFields.extract d) :
    ¬ (d.getLsbD 43 = false ∧ d.getLsbD 41 = false) := by
  obtain ⟨-, -, haccepts⟩ := hok
  have htype : type = d.getLsbD 43 := congrArg DescFields.type h
  have hacc : acc = d.getLsbD 41 := congrArg DescFields.accessibility h
  rw [← htype, ← hacc]
  exact not_readOnly_of_accepts haccepts

/-- Settles O30: any other word is built by the request for its own fields. -/
theorem encodeGenReachesEveryOtherWord : Obligations.EncodeGenReachesEveryOtherWord := by
  intro d
  rw [encodeForm_reaches_iff (.inr (.inr ⟨rfl, rfl⟩))]
  constructor
  · rintro ⟨req, type, acc, hok, hfields⟩
    exact not_readOnly_of_encodeFields_eq_extract hok hfields
  · exact fun h => ⟨_, _, _, requestFor_encodeOk h, encodeFields_requestFor_fill_all _⟩

/-- The values that the protected-mode canonical variant fixes (R64). -/
def DescFields.Canonical (f : DescFields) : Prop :=
  (f.d = true ∧ f.l = false ∧ f.avl = false) ∧ (f.p = true ∧ f.dpl = 0 ∧ f.s = true) ∧
    f.subtype = false ∧ f.accessed = false

theorem encodeFields_fill_none_canonical (req : Request) (c : SegClass) : (encodeFields 0x000#9 req c).Canonical :=
  ⟨⟨rfl, rfl, rfl⟩, ⟨rfl, rfl, rfl⟩, rfl, rfl⟩

/-- Fill 0x000 builds any canonical fields: G is the granularity of the request, and the others are fixed. -/
theorem encodeFields_requestFor_fill_none {f : DescFields} (h : f.Canonical) :
    encodeFields 0x000#9 (requestFor f) { type := f.type, accessibility := f.accessibility } = f := by
  obtain ⟨base, limit, g, d, l, avl, p, dpl, s, type, subtype, accessibility, accessed⟩ := f
  obtain ⟨⟨rfl, rfl, rfl⟩, ⟨rfl, rfl, rfl⟩, rfl, rfl⟩ := h
  rfl

/-- The fixed values of a descriptor's fields, as the slices of its bits that R105 names. -/
theorem DescFields.extract_canonical_iff (d : Word) :
    (DescFields.extract d).Canonical ↔
      d.extractLsb' 52 3 = 0b100#3 ∧ d.extractLsb' 44 4 = 0b1001#4 ∧ d.getLsbD 42 = false ∧ d.getLsbD 40 = false := by
  have hflags : d.extractLsb' 52 3 = one (d.getLsbD 54) ++ one (d.getLsbD 53) ++ one (d.getLsbD 52) := by
    simp only [one_getLsbD, BitVec.extractLsb'_append_extractLsb'_eq_extractLsb']
  have haccess : d.extractLsb' 44 4 = one (d.getLsbD 47) ++ d.extractLsb' 45 2 ++ one (d.getLsbD 44) := by
    simp only [one_getLsbD, BitVec.extractLsb'_append_extractLsb'_eq_extractLsb']
  have hflagsIff : ∀ b54 b53 b52 : Bool, one b54 ++ one b53 ++ one b52 = 0b100#3 ↔
      b54 = true ∧ b53 = false ∧ b52 = false := by decide
  have haccessIff : ∀ (b47 b44 : Bool) (dpl : BitVec 2), one b47 ++ dpl ++ one b44 = 0b1001#4 ↔
      b47 = true ∧ dpl = 0 ∧ b44 = true := by decide
  rw [hflags, haccess, hflagsIff, haccessIff]
  rfl

/-- Settles O31: ENCODE under fill 0x000 builds canonical fields only, and all of them but read-only data. -/
theorem encodePmReachesTheCanonicalWords : Obligations.EncodePmReachesTheCanonicalWords := by
  intro d
  rw [encodeForm_reaches_iff (.inr (.inl ⟨rfl, rfl⟩))]
  constructor
  · rintro ⟨req, type, acc, hok, hfields⟩
    have hcanonical := encodeFields_fill_none_canonical req { type := type, accessibility := acc }
    rw [hfields, DescFields.extract_canonical_iff] at hcanonical
    obtain ⟨hflags, haccess, h42, h40⟩ := hcanonical
    exact ⟨hflags, haccess, h42, h40, not_readOnly_of_encodeFields_eq_extract hok hfields⟩
  · rintro ⟨hflags, haccess, h42, h40, hclass⟩
    have hcanonical := (DescFields.extract_canonical_iff d).mpr ⟨hflags, haccess, h42, h40⟩
    exact ⟨_, _, _, requestFor_encodeOk hclass, encodeFields_requestFor_fill_none hcanonical⟩

end Sys2Proof.Machine

/-! The four output views (44_views_and_laws.md R96 to R100): the bit string (O46), the hexadecimal strings and the byte
literal digit by digit (O47), and each of the four as an encoding of the result that loses nothing (O48). -/

namespace Sys2Proof.Machine
open Sys2Proof.Claims

/-! The bit string. -/

@[simp] theorem bitChars_length (bits : Nat) (v : Word) : (bitChars bits v).length = bits := by
  induction bits with
  | zero => rfl
  | succ n ih => rw [bitChars, List.length_cons, ih]

/-- Character `k` of `bits` is that of bit `bits - 1 - k`. -/
theorem bitChars_getElem? (v : Word) (bits : Nat) {k : Nat} (h : k < bits) :
    (bitChars bits v)[k]? = some (if v.getLsbD (bits - 1 - k) then '1' else '0') := by
  induction bits generalizing k with
  | zero => omega
  | succ n ih =>
    cases k with
    | zero => rfl
    | succ k =>
      have hindex : n + 1 - 1 - (k + 1) = n - 1 - k := by omega
      rw [bitChars, List.getElem?_cons_succ, ih (by omega), hindex]

/-- Settles O46, with 64 bits. -/
theorem bitStringListsBitsFromTheTop : Obligations.BitStringListsBitsFromTheTop :=
  fun d => ⟨bitChars_length 64 d, fun _ hk => bitChars_getElem? d 64 hk⟩

/-! The hexadecimal strings, nibble by nibble. -/

/-- The digit of nibble `i`, `d[4i+3:4i]`. -/
def nibbleDigit {n : Nat} (d : BitVec n) (i : Nat) : Char := hexDigit (d.extractLsb' (4 * i) 4).toNat

theorem toNat_extractLsb'_nibble {n : Nat} (d : BitVec n) (i : Nat) :
    (d.extractLsb' (4 * i) 4).toNat = d.toNat / 16 ^ i % 16 := by
  have hpow : 2 ^ (4 * i) = 16 ^ i := by rw [Nat.pow_mul]
  rw [BitVec.extractLsb'_toNat, Nat.shiftRight_eq_div_pow, hpow]

/-- The digits of a bit vector are those of its nibbles, the highest first. -/
theorem hexChars_toNat {n : Nat} (digits : Nat) (d : BitVec n) :
    hexChars digits d.toNat = (List.range digits).reverse.map (nibbleDigit d) := by
  induction digits with
  | zero => rfl
  | succ k ih =>
    rw [hexChars, ih, ← toNat_extractLsb'_nibble, List.range_succ, List.reverse_append, List.map_append]
    rfl

theorem bigEndianHex_eq (d : Word) : bigEndianHex d = (List.range 16).reverse.map (nibbleDigit d) :=
  hexChars_toNat 16 d

theorem bigEndianHex_length (d : Word) : (bigEndianHex d).length = 16 := by
  simp [bigEndianHex_eq]

theorem bigEndianHex_getElem? (d : Word) {k : Nat} (h : k < 16) :
    (bigEndianHex d)[k]? = some (hexDigit (d.extractLsb' (60 - 4 * k) 4).toNat) := by
  have hpos : 60 - 4 * k = 4 * (16 - 1 - k) := by omega
  rw [bigEndianHex_eq, hpos]
  simp [nibbleDigit, h]

/-- The big-endian string has the bytes from byte 7 down. -/
theorem bigEndianHex_eq_twoDigits (d : Word) : bigEndianHex d =
    twoDigits d 7 ++ twoDigits d 6 ++ twoDigits d 5 ++ twoDigits d 4 ++
      twoDigits d 3 ++ twoDigits d 2 ++ twoDigits d 1 ++ twoDigits d 0 :=
  bigEndianHex_eq d

/-- Nibble `i` of byte `k` is nibble `2k + i` of the whole. -/
theorem byteOf_extractLsb'_nibble (d : Word) (k : Nat) {i : Nat} (h : i < 2) :
    (byteOf d k).extractLsb' (4 * i) 4 = d.extractLsb' (8 * k + 4 * i) 4 := by
  refine BitVec.eq_of_getLsbD_eq fun j hj => ?_
  rw [BitVec.getLsbD_extractLsb', BitVec.getLsbD_extractLsb', byteOf_getLsbD d k (by omega), Nat.add_assoc]

/-- The digits of a byte come from its own eight bits. -/
theorem twoDigits_eq_hexChars (d : Word) (k : Nat) : twoDigits d k = hexChars 2 (byteOf d k).toNat := by
  have hhigh : (byteOf d k).extractLsb' (4 * 1) 4 = d.extractLsb' (8 * k + 4) 4 :=
    byteOf_extractLsb'_nibble d k (by decide)
  have hlow : (byteOf d k).extractLsb' (4 * 0) 4 = d.extractLsb' (8 * k) 4 :=
    byteOf_extractLsb'_nibble d k (by decide)
  rw [hexChars_toNat, twoDigits, ← hhigh, ← hlow]
  rfl

theorem twoDigits_bswap64 (d : Word) {k : Nat} (h : k < 8) : twoDigits (bswap64 d) k = twoDigits d (7 - k) := by
  rw [twoDigits_eq_hexChars, twoDigits_eq_hexChars, byteOf_bswap64 d h]

/-- Reversing the bytes and listing them from the top lists them from byte 0 (R98). -/
theorem littleEndianHex_eq_twoDigits (d : Word) : littleEndianHex d =
    twoDigits d 0 ++ twoDigits d 1 ++ twoDigits d 2 ++ twoDigits d 3 ++
      twoDigits d 4 ++ twoDigits d 5 ++ twoDigits d 6 ++ twoDigits d 7 := by
  have hbig : littleEndianHex d = bigEndianHex (bswap64 d) := rfl
  rw [hbig, bigEndianHex_eq_twoDigits]
  simp only [twoDigits_bswap64, Nat.reduceLT, Nat.reduceSub]

theorem byteChars_byteOf (d : Word) (k : Nat) : byteChars (byteOf d k) = ['0', 'x'] ++ twoDigits d k := by
  rw [byteChars, twoDigits_eq_hexChars]
  rfl

/-- The bytes from byte 0 to byte 7, each after `0x`, and the separators between (R99). -/
theorem byteLiteral_eq_twoDigits (d : Word) : byteLiteral d =
    ['d', 'b', ' ', '0', 'x'] ++ twoDigits d 0 ++ [',', ' ', '0', 'x'] ++ twoDigits d 1 ++
      [',', ' ', '0', 'x'] ++ twoDigits d 2 ++ [',', ' ', '0', 'x'] ++ twoDigits d 3 ++
      [',', ' ', '0', 'x'] ++ twoDigits d 4 ++ [',', ' ', '0', 'x'] ++ twoDigits d 5 ++
      [',', ' ', '0', 'x'] ++ twoDigits d 6 ++ [',', ' ', '0', 'x'] ++ twoDigits d 7 := by
  simp [byteLiteral, byteChars_byteOf, List.intercalate, List.range_succ]

/-- Settles O47: the digit table is evaluated, the big-endian string is its 16 nibbles, and the two little-endian views
are its bytes in the opposite order. -/
theorem hexStringsListNibbles : Obligations.HexStringsListNibbles :=
  ⟨by decide, fun d => ⟨bigEndianHex_length d, fun _ hk => bigEndianHex_getElem? d hk, rfl,
    littleEndianHex_eq_twoDigits d, byteLiteral_eq_twoDigits d⟩⟩

/-! Each view determines the result (R100). -/

/-- No two nibbles share a digit. -/
theorem hexDigit_toNat_injective : ∀ {v w : BitVec 4}, hexDigit v.toNat = hexDigit w.toNat → v = w := by
  decide

/-- The two digits of a byte determine it. -/
theorem byteOf_eq_of_twoDigits_eq {d d' : Word} {k : Nat} (h : twoDigits d k = twoDigits d' k) :
    byteOf d k = byteOf d' k := by
  have hjoin (v : Word) : byteOf v k = v.extractLsb' (8 * k + 4) 4 ++ v.extractLsb' (8 * k) 4 := by
    rw [BitVec.extractLsb'_append_extractLsb'_eq_extractLsb' rfl]
    rfl
  simp only [twoDigits, List.cons.injEq, and_true] at h
  obtain ⟨hhigh, hlow⟩ := h
  rw [hjoin, hjoin, hexDigit_toNat_injective hhigh, hexDigit_toNat_injective hlow]

theorem word_eq_of_twoDigits_eq {d d' : Word} (h : ∀ k, k < 8 → twoDigits d k = twoDigits d' k) : d = d' :=
  word_eq_of_byteOf_eq fun k hk => byteOf_eq_of_twoDigits_eq (h k hk)

theorem bigEndianBits_injective : Function.Injective bigEndianBits := by
  intro d d' h
  refine BitVec.eq_of_getLsbD_eq fun i hi => ?_
  have hpos : 64 - 1 - (63 - i) = i := by omega
  have hchar := congrArg (·[63 - i]?) h
  simp only [bigEndianBits, bitChars_getElem? _ 64 (show 63 - i < 64 by omega), hpos, Option.some.injEq] at hchar
  revert hchar
  cases d.getLsbD i <;> cases d'.getLsbD i <;> decide

/-- Byte `k` has the characters `14 - 2k` and `15 - 2k`. -/
theorem twoDigits_of_bigEndianHex (d : Word) {k : Nat} (h : k < 8) :
    twoDigits d k = ((bigEndianHex d).drop (14 - 2 * k)).take 2 := by
  rw [bigEndianHex_eq_twoDigits]
  interval_cases k <;> rfl

theorem bigEndianHex_injective : Function.Injective bigEndianHex :=
  fun d d' h => word_eq_of_twoDigits_eq fun k hk => by
    rw [twoDigits_of_bigEndianHex d hk, twoDigits_of_bigEndianHex d' hk, h]

theorem littleEndianHex_injective : Function.Injective littleEndianHex :=
  bigEndianHex_injective.comp bswap64_involutive.injective

/-- Byte `k` has the characters `6k + 5` and `6k + 6`. -/
theorem twoDigits_of_byteLiteral (d : Word) {k : Nat} (h : k < 8) :
    twoDigits d k = ((byteLiteral d).drop (6 * k + 5)).take 2 := by
  rw [byteLiteral_eq_twoDigits]
  interval_cases k <;> simp [twoDigits]

theorem byteLiteral_injective : Function.Injective byteLiteral :=
  fun d d' h => word_eq_of_twoDigits_eq fun k hk => by
    rw [twoDigits_of_byteLiteral d hk, twoDigits_of_byteLiteral d' hk, h]

/-- Settles O48: a view gives back every bit or every byte of the result. -/
theorem viewsDetermineTheDescriptor : Obligations.ViewsDetermineTheDescriptor :=
  fun _ _ => ⟨@bigEndianBits_injective _ _, @bigEndianHex_injective _ _, @littleEndianHex_injective _ _,
    @byteLiteral_injective _ _⟩

end Sys2Proof.Machine

/-! The errors (60_exceptions.md R111 to R121): every request gets one readable response (O11), the two attribute
failures of ENCODE (O20, O21), and each status code with its causes (O15). -/

namespace Sys2Proof.Machine
open Sys2Proof.Claims

/-! One response per request. -/

/-- `resp_valid` follows `req_valid` (30_encoding.md R42, 70_reset_and_hazards.md R128). -/
@[simp] theorem driven_valid (req : Request) : (driven req).valid = req.valid := by
  cases hv : req.valid with
  | false => rw [driven_of_not_valid hv]; rfl
  | true => rw [driven, if_pos hv, Answer.drive_valid]

/-- Settles O11: the outcome driven is the answer of the request's operation, and reading it gives it back. -/
theorem everyRequestGetsOneResponse : Obligations.EveryRequestGetsOneResponse := by
  intro s
  refine ⟨_, step_eq s, rfl, driven_valid s.req, fun hv => ⟨answerOf s.req.instr s.req, ?_, ?_⟩⟩
  · exact if_pos hv
  · rw [driven, if_pos hv, Answer.read_drive]

/-! The attribute failures of ENCODE. -/

/-- The three ENCODE operations with right tags and a triple that the decision table rejects (40_encode.md R62). -/
theorem exec_of_encodeForm_of_error {i : Instr} {fill : FillSel} {s : State} {k : ErrorKind}
    (hform : EncodeForm i fill) (hbase : s.req.baseLen = 32) (hlimit : s.req.limitLen = 20)
    (h : classify s.req.readable s.req.executable s.req.writable = .error k) :
    exec i s = .next { s with resp := errorOnly k.code } := by
  rw [exec_of_encodeForm hform, encodeAnswer_of_error (s.req.widthsOk_iff.mpr ⟨hbase, hlimit⟩) h]
  rfl

/-- Settles O20: the table's case 2. -/
theorem encodeRefusesWritableCode : Obligations.EncodeRefusesWritableCode := by
  intro i fill s hform hbase hlimit hx hw
  exact exec_of_encodeForm_of_error hform hbase hlimit (by rw [hx, hw, classify_of_executable_of_writable])

/-- Settles O21: the table's case 3. -/
theorem encodeRefusesNoAttributes : Obligations.EncodeRefusesNoAttributes := by
  intro i fill s hform hbase hlimit hr hx hw
  exact exec_of_encodeForm_of_error hform hbase hlimit (by rw [hr, hx, hw, classify_of_no_attributes])

/-! Which error kind a request has, and that its status names it. -/

/-- The causes of each error kind (R113 to R118), in the fields of the request. A cause of ENCODE's attributes asks for
right tags, which are checked first (R119); on RANDGEN the triple is the drawn one. -/
def Request.HasCause (req : Request) : ErrorKind → Prop
  | .invalidFieldWidth => req.op = 0 ∧ (req.baseLen ≠ 32 ∨ req.limitLen ≠ 20)
  | .invalidAttributeCombination =>
      (req.op = 0 ∧ req.baseLen = 32 ∧ req.limitLen = 20 ∧ req.executable = true ∧ req.writable = true) ∨
      (req.op = 3 ∧ req.rnd.getLsbD 11 = true ∧ req.rnd.getLsbD 10 = true)
  | .noAttributes =>
      (req.op = 0 ∧ req.baseLen = 32 ∧ req.limitLen = 20 ∧
        req.readable = false ∧ req.executable = false ∧ req.writable = false) ∨
      (req.op = 3 ∧ req.rnd.getLsbD 12 = false ∧ req.rnd.getLsbD 11 = false ∧ req.rnd.getLsbD 10 = false)
  | .invalidLength => (req.op = 1 ∨ req.op = 2) ∧ req.descLen ≠ 64
  | .invalidOperation => 4 ≤ req.op.toNat

/-- No two error kinds share a status code (R112). -/
theorem ErrorKind.code_injective : Function.Injective ErrorKind.code :=
  fun k k' h => Option.some.inj (by rw [← k.ofCode_code, h, k'.ofCode_code])

/-- A response has an error's status exactly when it reports that error: a success has status 0. -/
theorem Answer.drive_status_eq_code_iff {a : Answer} {k : ErrorKind} : a.drive.status = k.code ↔ a = .error k := by
  cases a with
  | word | fields => exact ⟨fun h => absurd h.symm k.code_ne_zero, nofun⟩
  | error k' => rw [drive_error_status, ErrorKind.code_injective.eq_iff, Answer.error.injEq]

/-- The rejected triples, by the error that each gets (40_encode.md R62, R63). -/
theorem classify_eq_error_iff {r x w : Bool} {k : ErrorKind} :
    classify r x w = .error k ↔
      (x = true ∧ w = true ∧ k = .invalidAttributeCombination) ∨
        (r = false ∧ x = false ∧ w = false ∧ k = .noAttributes) := by
  refine ⟨classify_error_cases, ?_⟩
  rintro (⟨rfl, rfl, rfl⟩ | ⟨rfl, rfl, rfl, rfl⟩)
  · exact classify_of_executable_of_writable r
  · exact classify_of_no_attributes

/-- ENCODE's errors, the widths before the attributes (R119, 40_encode.md R59). -/
theorem encodeAnswer_eq_error_iff {fill : FillSel} {req : Request} {k : ErrorKind} :
    encodeAnswer fill req = .error k ↔
      (req.widthsOk = false ∧ k = .invalidFieldWidth) ∨
        (req.widthsOk = true ∧ classify req.readable req.executable req.writable = .error k) := by
  obtain ⟨hw, h⟩ | ⟨hw, k', hc, h⟩ | ⟨hw, c, hc, h⟩ := encodeAnswer_cases fill req <;> rw [h, hw]
  · simp [eq_comm]
  · simp [hc]
  · simp [hc]

/-- The length check of DECODE and BSWAP is their only failure (R117): what stands behind it is a success. -/
theorem lengthChecked_eq_error_iff {len : LenTag} {a : Answer} {k : ErrorKind} (ha : a ≠ .error k) :
    (if len = 64 then a else .error .invalidLength) = .error k ↔ len ≠ 64 ∧ k = .invalidLength := by
  by_cases hlen : len = 64
  · rw [if_pos hlen]
    exact ⟨fun h => absurd h ha, fun h => absurd hlen h.1⟩
  · rw [if_neg hlen, Answer.error.injEq, eq_comm, and_iff_right hlen]

/-- The wrong tags of R60, field by field. -/
theorem Request.widthsOk_eq_false_iff (req : Request) :
    req.widthsOk = false ↔ req.baseLen ≠ 32 ∨ req.limitLen ≠ 20 := by
  rw [← Bool.not_eq_true, Request.widthsOk_iff, not_and_or]
  rfl

/-- The operation that a request selects ends in an error exactly for a cause of it. -/
theorem Request.answerOf_instr_eq_error_iff (req : Request) (k : ErrorKind) :
    answerOf req.instr req = .error k ↔ req.HasCause k := by
  obtain hop | hop | hop | hop | hop := OpCode.cases req.op
  · rw [answerOf_instr_of_op0 hop, encodeAnswer_eq_error_iff, widthsOk_eq_false_iff, widthsOk_iff,
      classify_eq_error_iff]
    cases k <;> simp [HasCause, hop, and_assoc]
  · rw [instr_of_op1 hop, answerOf_decode, lengthChecked_eq_error_iff (a := .fields _) nofun]
    cases k <;> simp [HasCause, hop]
  · rw [instr_of_op2 hop, answerOf_bswap, lengthChecked_eq_error_iff (a := .word _ _) nofun]
    cases k <;> simp [HasCause, hop]
  · rw [answerOf_instr_of_op3 hop, encodeAnswer_eq_error_iff, drawn_widthsOk, classify_eq_error_iff]
    cases k <;> simp [HasCause, hop]
  · have hne {n : OpCode} (hn : n.toNat < 4) : req.op ≠ n := fun h => by rw [h] at hop; omega
    rw [instr_of_reserved hop, answerOf]
    cases k <;> simp [HasCause, hop, hne]

/-- The status of a valid request is the code of an error kind exactly for a cause of that kind. -/
theorem driven_status_eq_code_iff {req : Request} (hv : req.valid = true) (k : ErrorKind) :
    (driven req).status = k.code ↔ req.HasCause k := by
  rw [driven, if_pos hv, Answer.drive_status_eq_code_iff, Request.answerOf_instr_eq_error_iff]

/-- The codes 6 and 7 are never driven (R51). -/
theorem driven_status_ne_of_five_lt (req : Request) {code : BitVec 3} (h : 5 < code.toNat) :
    (driven req).status ≠ code := fun heq => by
  have hle : (driven req).status.toNat ≤ 5 := (driven_ok req).status_le
  rw [heq] at hle
  omega

/-- Settles O15: one clause per error kind, and the two codes that no kind has. -/
theorem statusNamesTheFirstCause : Obligations.StatusNamesTheFirstCause := by
  intro s hv
  have hcause (k : ErrorKind) := driven_status_eq_code_iff hv k
  exact ⟨_, step_eq s, hcause .invalidOperation, hcause .invalidFieldWidth, hcause .invalidAttributeCombination,
    hcause .noAttributes, hcause .invalidLength, driven_status_ne_of_five_lt _ (by decide),
    driven_status_ne_of_five_lt _ (by decide)⟩

end Sys2Proof.Machine

/-! A step with no request presented (70_reset_and_hazards.md R128): O7. -/

namespace Sys2Proof.Machine

/-- With `resp_valid` 0 the host reads no outcome, whatever stands on the other response fields. -/
theorem Response.read_of_not_valid {r : Response} (hv : r.valid = false) : r.read = none := by
  simp [Response.read, hv]

/-- With no request presented, a step clears the response and goes on to the next entry of the list. -/
theorem step_of_not_valid {s : State} (h : s.req.valid = false) :
    step s = .next { requests := s.requests.tail, resp := Response.idle } := by
  rw [step_eq, driven_of_not_valid h]

/-- Settles O7: the step drives the idle response, whose fields are all 0; `resp_valid` is one of them, so the host
reads nothing. -/
theorem noRequestDrivesTheIdleResponse : Obligations.NoRequestDrivesTheIdleResponse :=
  fun _ h => ⟨step_of_not_valid h, Response.read_of_not_valid rfl, rfl⟩

end Sys2Proof.Machine
